-- ==== Sys2Proof/Word.lean ====
section
/-! DEFINITION. The word types of the bridge (spec 00, I.6). -/

namespace Sys2Proof

/-- A data word: 32 bits on four byte lanes (00, I.6). -/
abbrev Word := BitVec 32

/-- One byte lane. -/
abbrev Byte := BitVec 8

/-- A word address of the space seen through the bridge: 0 to 4,194,303 (00, I.6). -/
abbrev Addr := BitVec 22

/-- A set of byte lanes, bit k for lane k: byte enables, byte masks, byte-valid and byte-owed marks. -/
abbrev Lanes := BitVec 4

/-- A window number, 0 to 15 (01, 1.2). -/
abbrev WinIdx := Fin 16

end Sys2Proof
end

