-- ==== Sys2Proof/Syntax.lean ====
section
/-! DEFINITION. The commands of the bridge: one constructor of Instr for every row of spec/opcode_table.json, with what
the lines carry at that event as its operands (log 1). -/

namespace Sys2Proof

/-- A controller access as it stands on CP-A, CP-WR, CP-BE and CP-D (R1). -/
structure Access where
  addr : Addr
  write : Bool
  enables : Lanes
  data : Word
  deriving DecidableEq, Repr

/-- The levels of MP-ACK and MP-FAIL (R2). -/
structure PortLines where
  ack : Bool
  fail : Bool
  deriving DecidableEq, Repr

/-- What the bridge samples while power comes up: the straps, MG-SEL, FLT-IN and ALR-IN (R4, R162, R132). -/
structure PowerPins where
  straps : BitVec 3
  sel : Bool
  fltIn : Bool
  alrIn : Bool
  deriving DecidableEq, Repr

/-- The two level causes (R122). -/
inductive LevelCause where
  | chain
  | stageLow
  deriving DecidableEq, Repr

/-- How a command that may be broadcast came (R165). -/
inductive Via where
  | unicast
  | broadcast
  deriving DecidableEq, Repr

/-- The operations a request may carry (Table 11-5), a command with the straps that RESET would sample (R173); code 11 is a frame error
and never a request. -/
inductive Operation where
  | readItem
  | writeItem
  | command (straps : BitVec 3)
  deriving DecidableEq, Repr

/-- The seven bytes of a request phase (Table 11-5). -/
structure RequestBytes where
  header : Byte
  number : Byte
  data3 : Byte
  data2 : Byte
  data1 : Byte
  data0 : Byte
  check : Byte
  deriving DecidableEq, Repr

/-- A frame as MG-SEL closes it: how many edges of MG-CLK it had, and the bytes of its request phase. A byte that the
edges did not complete has no meaning (R162). -/
structure Frame where
  edges : Nat
  bytes : RequestBytes
  deriving DecidableEq, Repr

/-- The two descriptor items of a window (Table 11-10). -/
inductive DescPart where
  | a
  | b
  deriving DecidableEq, Repr

/-- The commands. A command of the link that the table names stands for a unicast frame addressed to the bridge,
free of frame errors, at its 56th edge (R166); its argument or value is bytes 2 to 5. -/
inductive Instr where
  /-- POWER_ON (R17): power comes up and power-on ends, with the given levels on the lines. -/
  | powerOn (pins : PowerPins)
  /-- RESET_INPUT_ASSERTED (R4). -/
  | resetInputAsserted
  /-- RESET_INPUT_NEGATED (R4), with the straps and the level of MG-SEL at that moment. -/
  | resetInputNegated (straps : BitVec 3) (sel : Bool)
  /-- FLT_IN_CHANGE (R132): FLT-IN takes this level. -/
  | fltInChange (level : Bool)
  /-- ALR_IN_CHANGE (R132): ALR-IN takes this level. -/
  | alrInChange (level : Bool)
  /-- CONTROLLER_ACCESS (R12). `grantFirst` settles the race of R46 and R85 (log 6): the port is found
  free and granted to this access before the SAFE entry that the access itself causes is taken. -/
  | controllerAccess (access : Access) (grantFirst : Bool)
  /-- CP_REQ_NEGATED (R1). -/
  | cpReqNegated
  /-- MEMORY_PORT_GRANT (R97), with the levels of MP-ACK and MP-FAIL the arbiter finds. -/
  | memoryPortGrant (lines : PortLines)
  /-- MEMORY_PORT_ACCESS_END (R99), with the lines found and the read data on MP-D. -/
  | memoryPortAccessEnd (lines : PortLines) (data : Word)
  /-- MEMORY_PORT_TIMEOUT (R2): 20 µs have passed since MP-REQ with neither line. -/
  | memoryPortTimeout
  /-- POOL_STALL_END (R41). -/
  | poolStallEnd
  /-- MARK_STALL_END (R24). -/
  | markStallEnd
  /-- ENDING_STALL_END (R14). -/
  | endingStallEnd
  /-- RETIREMENT (R94). -/
  | retirement
  /-- SAFE_FILL_COMPLETE (R139). -/
  | safeFillComplete
  /-- REISSUE_COMPLETE (R148). -/
  | reissueComplete
  /-- COMMIT_WINDOW_COMPLETE (R7). -/
  | commitWindowComplete
  /-- DROP_WINDOW_COMPLETE (R9). -/
  | dropWindowComplete
  /-- WATCHDOG_EXPIRY (R160). -/
  | watchdogExpiry
  /-- FREEZE_TIMER_EXPIRY (R118). `safeFirst` settles its race (log 7): a SAFE request of FREEZE EXPIRED is taken
  before the thaws. -/
  | freezeTimerExpiry (safeFirst : Bool)
  /-- QUALIFYING_TIME_REACHED (R122). -/
  | qualifyingTimeReached (cause : LevelCause)
  /-- FRAME_END (R164): MG-SEL is negated. The straps are those a broadcast RESET would sample (R173). -/
  | frameEnd (frame : Frame) (straps : BitVec 3)
  /-- FRAME_ERROR (R164): the 56th edge of a frame with these bytes. -/
  | frameError (bytes : RequestBytes)
  /-- UNKNOWN_REQUEST (R166): a request taken by the general steps from their first, whatever its number or code. -/
  | unknownRequest (operation : Operation) (number : Byte) (data : Word)
  /-- START (R18). -/
  | start (argument : Word)
  /-- STOP (R26). -/
  | stop (argument : Word)
  /-- RESUME (R144). -/
  | resume (argument : Word)
  /-- SAFE (R31), unicast or broadcast. -/
  | safe (via : Via) (argument : Word)
  /-- FREEZE n (R107). -/
  | freeze (argument : Word)
  /-- THAW n (R107). -/
  | thaw (argument : Word)
  /-- COMMIT WINDOW n (R6). -/
  | commitWindow (argument : Word)
  /-- DROP WINDOW n (R9). -/
  | dropWindow (argument : Word)
  /-- UNLOCK (R172). -/
  | unlock (argument : Word)
  /-- RESET (R173), unicast or broadcast, with the straps it samples. -/
  | reset (via : Via) (argument : Word) (straps : BitVec 3)
  /-- CLEAR LONGEST (R156). -/
  | clearLongest (argument : Word)
  /-- Write of CAUSES (R125). -/
  | causesWrite (value : Word)
  /-- Write of WINDOW n A or WINDOW n B (R5). -/
  | windowDescriptorWrite (n : WinIdx) (part : DescPart) (value : Word)
  /-- Write of MARK ADDRESS (R10). -/
  | markAddressWrite (value : Word)
  /-- Write of MARKER ADDRESS (R10). -/
  | markerAddressWrite (value : Word)
  /-- Write of WATCHDOG PERIOD (R159). -/
  | watchdogPeriodWrite (value : Word)
  /-- Write of PRESCALE (R157). -/
  | prescaleWrite (value : Word)
  /-- Write of STAGE LOW THRESHOLD (R48). -/
  | stageLowThresholdWrite (value : Word)
  /-- Write of FREEZE TIMER (R116). -/
  | freezeTimerWrite (value : Word)
  /-- Write of QUALIFY CHAIN or QUALIFY STAGE LOW (R124). -/
  | qualifyWrite (cause : LevelCause) (value : Word)
  /-- Write of ACTIONS (R127). -/
  | actionsWrite (value : Word)
  /-- Write of PRIORITY LIST A (R129). -/
  | priorityListAWrite (value : Word)
  /-- Write of PRIORITY LIST B (R129). -/
  | priorityListBWrite (value : Word)
  /-- Write of QUIET MARK (R130). -/
  | quietMarkWrite (value : Word)
  /-- Write of FORCE (R133). -/
  | forceWrite (value : Word)
  /-- Write of RESUME POLICY (R143). -/
  | resumePolicyWrite (value : Word)
  /-- Write of LOCK (R171). -/
  | lockWrite (value : Word)
  /-- Write of IMAGE POINTER (R69). -/
  | imagePointerWrite (value : Word)
  /-- Write of IMAGE DATA (R71). -/
  | imageDataWrite (value : Word)
  /-- WRITE_ITEM (R166): a write of any item, by the general steps. -/
  | writeItem (number : Byte) (value : Word)
  /-- Read of STATE (R170). -/
  | stateRead
  /-- Read of CAPTURE (R158). -/
  | captureRead
  /-- Read of IMAGE DATA (R70). -/
  | imageDataRead
  /-- PERIOD_COUNTER_ADVANCE (R153): a further 10 µs have passed since the restart. -/
  | periodCounterAdvance
  /-- FREEZE_TIMER_COUNT_DOWN (R117): a further unit of the start range has passed. -/
  | freezeTimerCountDown
  /-- QUALIFYING_TIMER_ADVANCE (R122): this many REFCLK periods have passed. -/
  | qualifyingTimerAdvance (cause : LevelCause) (periods : Nat)
  deriving DecidableEq, Repr

end Sys2Proof
end

