-- ==== Sys2Proof/Decode.lean ====
section
/-! DEFINITION. Commands as words. The opcode table gives no row any bits, so no word spells a command. -/

namespace Sys2Proof

/-- The command that a word of so many bits spells by the table's bits: none, since no row gives bits (log 3). -/
def decodeTableWord (_nbits _w : Nat) : Option Instr := none

end Sys2Proof
end

