-- ==== Sys2Proof/Config.lean ====
section
/-! DEFINITION. What the part fixes for good, and the one value the manual leaves open. -/

namespace Sys2Proof.Config

/-- Words of the address space seen through the bridge (00, I.6). -/
def addressSpace : Nat := 4194304

/-- Entries of the staging pool (R35). -/
def poolSize : Nat := 256

/-- Words of the image store (R58). -/
def storeSize : Nat := 1024

/-- Batch records the release queue may hold (R89). -/
def queueLimit : Nat := 4

/-- REFCLK periods in one millisecond: the reference clock is 8 MHz (00, I.5). -/
def refclkPerMs : Nat := 8000

/-- The argument a RESET command must carry (R173). -/
def resetArgument : Word := 0x96#32

/-- FREE VALUE (log 5). A locked bridge is sent a write whose value is bad as well. For the items whose rule
gives no order to the two tests (R48, R124, R127, R129, R130, R143, R159) nothing says which reason
the refusal carries: for item number n it is LOCKED if this is true and the value's own reason if it is false. -/
opaque lockTestFirst : Byte → Bool

end Sys2Proof.Config
end

