-- ==== Sys2Proof/Machine/State.lean ====
section
/-! DEFINITION. The state of the bridge, block by block, and the state right after power-on. -/

namespace Sys2Proof.Machine

/-! ## Address matcher (01) -/

/-- Kind of a window (Table 1-1). -/
inductive Kind where
  | input
  | output
  deriving DecidableEq, Repr

/-- Safe policy of a window (Table 1-1). -/
inductive Policy where
  | hold
  | zero
  | pattern
  deriving DecidableEq, Repr

/-- Freeze states (Table 7-1). -/
inductive Freeze where
  | opened
  | freezePending
  | frozen
  | thawPending
  deriving DecidableEq, Repr

/-- The fields a window's descriptor and its record both have (Table 1-1). -/
structure Fields where
  base : Addr
  kind : Kind
  policy : Policy
  length : BitVec 9
  imageBase : BitVec 10
  safeBase : BitVec 10
  deriving DecidableEq, Repr

/-- One window: the descriptor the host writes, the record in effect, Defined, and the freeze state (1.2). -/
structure Window where
  descriptor : Fields
  record : Fields
  defined : Bool
  freeze : Freeze
  deriving DecidableEq, Repr

/-- The sixteen windows. -/
abbrev Windows := Vector Window 16

/-- A bus address with its enable: the mark address or the marker address (1.4). -/
structure BusMark where
  addr : Addr
  enabled : Bool
  deriving DecidableEq, Repr

/-! ## The two ports (01, 06) -/

/-- Lines that other agents drive, as last seen: RESET, FLT-IN, ALR-IN, MP-ACK, MP-FAIL. -/
structure Lines where
  resetHeld : Bool
  fltIn : Bool
  alrIn : Bool
  mpAck : Bool
  mpFail : Bool
  deriving DecidableEq, Repr

/-- The kinds of controller-service request (Table 6-3). -/
inductive Service where
  | pass
  | passImage
  | merged
  | fetch
  | torn
  deriving DecidableEq, Repr

/-- The class of a controller access, with the window of a window access (R11). -/
inductive AccessClass where
  | plain
  | mark
  | input (n : WinIdx)
  | output (n : WinIdx)
  deriving DecidableEq, Repr

/-- What an outstanding controller access waits for. -/
inductive Wait where
  /-- The RESET input is asserted (R4). -/
  | held
  /-- The grant of a controller-service request (R97). -/
  | service (kind : Service)
  /-- The end of the Memory Port access begun on its behalf. -/
  | begun
  /-- A free pool entry (R41). -/
  | poolStall
  /-- The retirement of the oldest of four batch records (R24). -/
  | markStall
  /-- The emptying of the release queue in ENDING (R14). -/
  | endingStall
  /-- The end of the sampler read it shares (R82). -/
  | shared
  /-- The end of an access whose result a RESET command has discarded; then a pass (R174). -/
  | afterDiscard
  deriving DecidableEq, Repr

/-- An outstanding controller access (R1). `cls`: its class, read from the mark and the window table when it was taken, and kept (R11);
an access that RESET holds out is PLAIN, as the reset table has it (R4, log 30). `effectTaken`: the effect its treatment names beside
the pass (a first mark, a boundary, INPUT WRITE, TORN) has been taken, and R15 does not take it again (log 9). -/
structure Outstanding where
  access : Access
  cls : AccessClass
  wait : Wait
  effectTaken : Bool
  deriving DecidableEq, Repr

/-- The Controller Port (R1). `ended` stands until the controller negates CP-REQ; it carries CP-ACK, CP-FAIL and, for a
read, the data on CP-D. -/
inductive CpState where
  | idle
  | outstanding (o : Outstanding)
  | ended (ack fail : Bool) (data : Word)
  deriving DecidableEq, Repr

/-- Where the entry of an entry write in flight stands (R53, R55): at the head of its record, taken out of it by a purge,
or left behind when SAFE entry dropped the record. -/
inductive EntryHold where
  | queued
  | purged
  | dropped
  deriving DecidableEq, Repr

/-- The requester of the Memory Port access in flight, and what its end is to do. `live` says that the work the write
belongs to still stands where it stood when the write was begun. -/
inductive Owner where
  | pass
  | passImage (n : WinIdx)
  | torn (n : WinIdx)
  | merged (gathered : Word) (missing : Lanes)
  | fetch (n : WinIdx)
  | entry (n : WinIdx) (hold : EntryHold)
  | flushWord (n : WinIdx) (withdrawn : Bool)
  | batchMarker (live : Bool)
  | fillWord (n : WinIdx) (live : Bool)
  | safeMarker (live : Bool)
  | reissueWord (n : WinIdx) (live : Bool)
  | reissueMarker (live : Bool)
  /-- A walk read; `stale` once a mark or SAFE entry has come since it was begun (R77, R86). -/
  | walkRead (n : WinIdx) (stale : Bool)
  /-- A RESET command has come since: the end is discarded (R33, R59, R103, R174). -/
  | discarded
  deriving DecidableEq, Repr

/-- The Memory Port access in flight: MP-A, MP-WR, MP-BE, MP-D with MP-REQ asserted (R2). -/
structure PortAccess where
  addr : Addr
  write : Bool
  enables : Lanes
  data : Word
  owner : Owner
  deriving DecidableEq, Repr

/-- The two background requesters (R97). -/
inductive Background where
  | release
  | sampler
  deriving DecidableEq, Repr

/-! ## Cycle controller (02, 10) -/

/-- Bridge modes (02). -/
inductive Mode where
  | idle
  | armed
  | run
  | ending
  | safe
  deriving DecidableEq, Repr

/-- Mode, cycle number, stop-pending and the current-cycle flags (R17). -/
structure Control where
  mode : Mode
  number : BitVec 16
  stopPending : Bool
  first : Bool
  torn : Bool
  deriving DecidableEq, Repr

/-- Watchdog states (R160). -/
inductive WdState where
  | stopped
  | running
  | expired
  deriving DecidableEq, Repr

/-- The state of cycle timing (Table 10-1). -/
structure Timing where
  count : BitVec 24
  running : Bool
  last : BitVec 24
  longest : BitVec 24
  capture : BitVec 24
  captured : Bool
  captureOverrun : Bool
  prescale : BitVec 8
  prescaleCount : BitVec 8
  wdPeriod : BitVec 16
  wdLimit : Nat
  wdState : WdState
  deriving DecidableEq, Repr

/-! ## Staging pool (03) -/

/-- An entry: one held write to one word (Table 3-1). -/
structure Entry where
  addr : Addr
  window : WinIdx
  data : Word
  mask : Lanes
  deriving DecidableEq, Repr

/-- The open stage, in first-written order, and the stage-low threshold (R36, R37). -/
structure Pool where
  openStage : List Entry
  threshold : BitVec 8
  deriving DecidableEq, Repr

/-! ## Image store (04) -/

/-- The ten marks of a store word (Table 4-1). -/
structure Marks where
  valid : Lanes
  owed : Lanes
  held : Bool
  fresh : Bool
  deriving DecidableEq, Repr

/-- Every mark clear. -/
def Marks.clear : Marks := ⟨0, 0, false, false⟩

/-- The image store (R58): data bytes by byte address (4 times the store word, plus the lane), and marks by store word.
Both lists are in canonical form (Memory.wf); an unlisted byte is zero and an unlisted word has every
mark clear, as every reset leaves them (R59). -/
structure Store where
  data : List Host.Cell
  marks : List (Nat × Marks)
  deriving DecidableEq, Repr

/-! ## Input sampler (05) -/

/-- Sampler states (Table 5-1). -/
inductive SamplerState where
  | stopped
  | walking
  | finished
  deriving DecidableEq, Repr

/-- The sampler (Table 5-1). A position is a window and the word's place in it: its address is Base plus that place. -/
structure Sampler where
  state : SamplerState
  position : Option (WinIdx × Nat)
  walkSet : List WinIdx
  done : Bool
  deriving DecidableEq, Repr

/-! ## Release queue and release engine (06, 09) -/

/-- States of a batch record (Table 6-1). -/
inductive Stage where
  | queued
  | writing
  | flushing
  | marking
  deriving DecidableEq, Repr

/-- A batch record (Table 6-1). -/
structure BatchRecord where
  cycle : BitVec 16
  entries : List Entry
  flushSet : List WinIdx
  first : Bool
  torn : Bool
  flush : Bool
  stage : Stage
  deriving DecidableEq, Repr

/-- The release queue, oldest first, the flush position of the head, and whether the head's work has ended so that its
RETIREMENT is due (R94, log 19). -/
structure Release where
  queue : List BatchRecord
  flushPos : Option (WinIdx × Nat)
  retireDue : Bool
  deriving DecidableEq, Repr

/-- How far a safe fill or a reissue has come: at its words, at its marker, or ended with its completion due. -/
inductive WorkPhase where
  | words
  | marker
  | due
  deriving DecidableEq, Repr

/-- The safe fill (R137): fill list, place in its first window, safe-filling, and how far it has come. -/
structure Fill where
  list : List WinIdx
  offset : Nat
  active : Bool
  phase : WorkPhase
  deriving DecidableEq, Repr

/-- Resume policies (R143). -/
inductive ResumePolicy where
  | fresh
  | reissue
  deriving DecidableEq, Repr

/-- The reissue (R146) and the resume policy (R143). -/
structure Reissue where
  resuming : Bool
  position : Option (WinIdx × Nat)
  phase : WorkPhase
  policy : ResumePolicy
  deriving DecidableEq, Repr

/-! ## Freeze control (07) -/

/-- Ranges of the freeze timer (Table 7-3). -/
inductive Range where
  | seconds
  | minutes
  deriving DecidableEq, Repr

/-- The first-flush set and the freeze timer (R110, Table 7-3); the freeze states stand in the windows. -/
structure FreezeControl where
  firstFlush : List WinIdx
  setting : BitVec 8
  range : Range
  running : Bool
  remaining : BitVec 8
  startRange : Range
  deriving DecidableEq, Repr

/-! ## Cause unit (08) -/

/-- The ten causes (Table 8-1). -/
inductive Cause where
  | wdog
  | memory
  | chain
  | torn
  | overrun
  | stageLow
  | freezeExpired
  | inputWrite
  | link
  | powerOn
  deriving DecidableEq, Repr

/-- A level cause's qualifying time in ms and its timer in REFCLK periods (Table 8-2). -/
structure Level where
  time : BitVec 8
  timer : Nat
  deriving DecidableEq, Repr

/-- The cause unit: flags and actions (bit n for cause n, action 1 SAFE), priority list, pending first part, quiet mark,
level causes and force bits. -/
structure CauseUnit where
  flags : BitVec 10
  actions : BitVec 10
  priority : List Cause
  pendingFirst : Option Word
  quietMark : Fin 11
  chain : Level
  stageLow : Level
  forceFault : Bool
  forceAlert : Bool
  deriving DecidableEq, Repr

/-! ## Management port (11) -/

/-- Status codes of a reply (Table 11-2). -/
inductive Status where
  | ack
  | accepted
  | busy
  | refused
  | unknown
  | check
  deriving DecidableEq, Repr

/-- Reason and result codes (Table 11-8). -/
inductive Reason where
  | none
  | mode
  | locked
  | argument
  | range
  | overlap
  | slice
  | mark
  | ok
  | abandoned
  | pending
  deriving DecidableEq, Repr

/-- A reply as it is held for the reply phase (R166, R167). -/
structure Reply where
  status : Status
  data : Word
  deriving DecidableEq, Repr

/-- The frame on the link, as far as the rows tell it: none, one whose request has been taken at its 56th edge, one found in
error there, or one that a reset has abandoned (R162, R164). -/
inductive FramePhase where
  | none
  | taken
  | errored
  | abandoned
  deriving DecidableEq, Repr

/-- The commands that go on after their frame (11.3). -/
inductive InFlight where
  | commitWindow (n : WinIdx)
  | dropWindow (n : WinIdx)
  | reissue
  deriving DecidableEq, Repr

/-- LAST RESULT (R169). -/
structure LastResult where
  result : Reason
  code : Byte
  argument : Byte
  deriving DecidableEq, Repr

/-- The management port: frame, held reply, command in flight, LAST RESULT, DONE, COLLISION and the lock. -/
structure Management where
  frame : FramePhase
  reply : Option Reply
  command : Option InFlight
  lastResult : LastResult
  done : Bool
  collision : Bool
  locked : Bool
  lockCode : Word
  deriving DecidableEq, Repr

/-! ## The whole bridge -/

/-- The state of the bridge, with the queue of commands that wait for it. -/
structure State where
  pending : List Instr
  lines : Lines
  identity : BitVec 3
  cp : CpState
  mp : Option PortAccess
  background : Background
  win : Windows
  mark : BusMark
  marker : BusMark
  ctl : Control
  pool : Pool
  image : Store
  pointer : BitVec 10
  sampler : Sampler
  release : Release
  fill : Fill
  reissue : Reissue
  freeze : FreezeControl
  causes : CauseUnit
  timing : Timing
  mg : Management
  deriving DecidableEq, Repr

/-- The faults of the machine. There is none: whatever goes wrong at the bridge is a cause latch, a CP-FAIL, a reply or the SAFE
mode, all of them State, and no rule of the manual stops the part. Nobody raises a fault, which is safe. -/
inductive Fault where
  deriving DecidableEq, Repr

/-- The refusals of the machine. -/
inductive Refusal where
  /-- A command that has no meaning yet: raised by exec's arm alone, and by no arm of this model; safe. -/
  | notModelled (mnemonic : String)
  deriving DecidableEq, Repr

/-! ## Updates of one field -/

/-- The state with another `pending`. -/
def State.setPending (s : State) (x : List Instr) : State := { s with pending := x }

/-- The state with another `lines`. -/
def State.setLines (s : State) (x : Lines) : State := { s with lines := x }

/-- The state with another `identity`. -/
def State.setIdentity (s : State) (x : BitVec 3) : State := { s with identity := x }

/-- The state with another `cp`. -/
def State.setCp (s : State) (x : CpState) : State := { s with cp := x }

/-- The state with another `mp`. -/
def State.setMp (s : State) (x : Option PortAccess) : State := { s with mp := x }

/-- The state with another `background`. -/
def State.setBackground (s : State) (x : Background) : State := { s with background := x }

/-- The state with another `win`. -/
def State.setWin (s : State) (x : Windows) : State := { s with win := x }

/-- The state with another `mark`. -/
def State.setMark (s : State) (x : BusMark) : State := { s with mark := x }

/-- The state with another `marker`. -/
def State.setMarker (s : State) (x : BusMark) : State := { s with marker := x }

/-- The state with another `ctl`. -/
def State.setCtl (s : State) (x : Control) : State := { s with ctl := x }

/-- The state with another `pool`. -/
def State.setPool (s : State) (x : Pool) : State := { s with pool := x }

/-- The state with another `image`. -/
def State.setImage (s : State) (x : Store) : State := { s with image := x }

/-- The state with another `pointer`. -/
def State.setPointer (s : State) (x : BitVec 10) : State := { s with pointer := x }

/-- The state with another `sampler`. -/
def State.setSampler (s : State) (x : Sampler) : State := { s with sampler := x }

/-- The state with another `release`. -/
def State.setRelease (s : State) (x : Release) : State := { s with release := x }

/-- The state with another `fill`. -/
def State.setFill (s : State) (x : Fill) : State := { s with fill := x }

/-- The state with another `reissue`. -/
def State.setReissue (s : State) (x : Reissue) : State := { s with reissue := x }

/-- The state with another `freeze`. -/
def State.setFreeze (s : State) (x : FreezeControl) : State := { s with freeze := x }

/-- The state with another `causes`. -/
def State.setCauses (s : State) (x : CauseUnit) : State := { s with causes := x }

/-- The state with another `timing`. -/
def State.setTiming (s : State) (x : Timing) : State := { s with timing := x }

/-- The state with another `mg`. -/
def State.setMg (s : State) (x : Management) : State := { s with mg := x }

/-! ## Reset -/

/-- The fields of a window after every reset (R5). -/
def Fields.reset : Fields := ⟨0, .input, .hold, 0, 0, 0⟩

/-- A window after every reset (R5, R106). -/
def Window.reset : Window := ⟨.reset, .reset, false, .opened⟩

/-- The cause unit after every reset, no flag set (R135, Table 8-1, Table 8-2). -/
def CauseUnit.reset : CauseUnit :=
  { flags := 0, actions := 0b0000000111#10,
    priority := [.wdog, .memory, .chain, .torn, .overrun, .stageLow, .freezeExpired, .inputWrite, .link, .powerOn],
    pendingFirst := none, quietMark := 10, chain := ⟨2, 0⟩, stageLow := ⟨10, 0⟩, forceFault := false, forceAlert := false }

/-- Cycle timing after every reset (Table 10-1). -/
def Timing.reset : Timing :=
  { count := 0, running := false, last := 0, longest := 0, capture := 0, captured := false, captureOverrun := false,
    prescale := 1, prescaleCount := 0, wdPeriod := 0, wdLimit := 0, wdState := .stopped }

/-- The management port after every reset (R169, R170, R171), with no frame on the link and no reply held. -/
def Management.reset : Management :=
  { frame := .none, reply := none, command := none, lastResult := ⟨.none, 0, 0⟩, done := false, collision := false,
    locked := false, lockCode := 0 }

/-- Every block in its reset state (R4, R5, R10, R17, R36, R59, R74, R89, R97, R103, R106, R116, R135, R137, R143, R146, R153,
R159, R169 to R171), with no cause latched, the queue of commands empty, and the levels log 4 names on
the lines. -/
def State.blocksReset : State :=
  { pending := [],
    lines := ⟨false, false, false, false, false⟩,
    identity := 0,
    cp := .idle,
    mp := none,
    background := .sampler,
    win := Vector.replicate 16 Window.reset,
    mark := ⟨0, false⟩,
    marker := ⟨0, false⟩,
    ctl := ⟨.idle, 0, false, false, false⟩,
    pool := ⟨[], 16⟩,
    image := ⟨[], []⟩,
    pointer := 0,
    sampler := ⟨.stopped, none, [], false⟩,
    release := ⟨[], none, false⟩,
    fill := ⟨[], 0, false, .words⟩,
    reissue := ⟨false, none, .words, .fresh⟩,
    freeze := ⟨[], 0, .seconds, false, 0, .seconds⟩,
    causes := CauseUnit.reset,
    timing := Timing.reset,
    mg := Management.reset }

/-- The bridge when power-on has ended: every block in its reset state and POWER-ON latched (R17, R135). The levels of the lines
and the strapped identity are the model's choice (log 4). -/
def State.reset : State :=
  { State.blocksReset with causes := { CauseUnit.reset with flags := 0b1000000000#10 } }

end Sys2Proof.Machine
end

