-- ==== Sys2Proof/Machine/Ops.lean ====
section
/-! DEFINITION. The named operations over lanes, the image store, the windows and the ports. Every access to the store and to the
window table goes through these. -/

namespace Sys2Proof.Machine

/-! ## Byte lanes (00, I.6) -/

/-- Lane `k` of a word: bits 8k+7 to 8k. -/
def lane (k : Nat) (w : Word) : Byte := w.extractLsb' (8 * k) 8

/-- The word with these four lanes. -/
def ofLanes (b3 b2 b1 b0 : Byte) : Word := b3 ++ b2 ++ b1 ++ b0

/-- The word that has `new` on the lanes of `m` and `old` on the others. -/
def mergeLanes (m : Lanes) (new old : Word) : Word :=
  ofLanes (if m[3] then lane 3 new else lane 3 old) (if m[2] then lane 2 new else lane 2 old)
    (if m[1] then lane 1 new else lane 1 old) (if m[0] then lane 0 new else lane 0 old)

/-- All four lanes. -/
def allLanes : Lanes := 0b1111#4

/-! ## Sparse memory in canonical form -/

/-- What an address reads as; `d` is what an unlisted address reads as. -/
def Memory.read {α : Type} (d : α) : List (Nat × α) → Nat → α
  | [], _ => d
  | (k, v) :: t, a => if k = a then v else Memory.read d t a

/-- Write one cell, keeping addresses rising and listing no cell that holds `d`. -/
def Memory.write {α : Type} [DecidableEq α] (d : α) : List (Nat × α) → Nat → α → List (Nat × α)
  | [], a, v => if v = d then [] else [(a, v)]
  | (k, u) :: t, a, v =>
    if a < k then (if v = d then (k, u) :: t else (a, v) :: (k, u) :: t)
    else if a = k then (if v = d then t else (a, v) :: t)
    else (k, u) :: Memory.write d t a v

/-- Change every listed cell by `f`, dropping the cells that come to hold `d`. For an `f` that leaves `d` as it is this
changes every address. -/
def Memory.update {α : Type} [DecidableEq α] (d : α) (f : Nat → α → α) (m : List (Nat × α)) : List (Nat × α) :=
  m.filterMap fun c => if f c.1 c.2 = d then none else some (c.1, f c.1 c.2)

/-- The canonical form: addresses strictly rising, and no cell that holds what an unlisted address reads as. -/
abbrev Memory.wf {α : Type} (d : α) (m : List (Nat × α)) : Prop :=
  m.Pairwise (fun a b => a.1 < b.1) ∧ ∀ c ∈ m, c.2 ≠ d

/-! ## The image store (04) -/

/-- Both lists of the store are in canonical form. -/
abbrev Store.wf (st : Store) : Prop := Memory.wf 0#8 st.data ∧ Memory.wf Marks.clear st.marks

/-- One data byte of the store. -/
def Store.byte (st : Store) (a : Nat) : Byte := Memory.read 0#8 st.data a

/-- The four lanes of a store word. -/
def Store.word (st : Store) (w : Nat) : Word :=
  ofLanes (st.byte (4 * w + 3)) (st.byte (4 * w + 2)) (st.byte (4 * w + 1)) (st.byte (4 * w))

/-- The marks of a store word. -/
def Store.marksAt (st : Store) (w : Nat) : Marks := Memory.read Marks.clear st.marks w

/-- Write one byte where `b` says so. -/
def writeByteIf (b : Bool) (m : List Host.Cell) (a : Nat) (v : Byte) : List Host.Cell :=
  if b then Memory.write 0#8 m a v else m

/-- Write the named lanes of a store word; the other lanes keep their data (R58). -/
def Store.writeLanes (st : Store) (w : Nat) (l : Lanes) (v : Word) : Store :=
  { st with data :=
      writeByteIf l[3] (writeByteIf l[2] (writeByteIf l[1] (writeByteIf l[0] st.data (4 * w) (lane 0 v))
        (4 * w + 1) (lane 1 v)) (4 * w + 2) (lane 2 v)) (4 * w + 3) (lane 3 v) }

/-- Change the marks of one store word. -/
def Store.mark (st : Store) (w : Nat) (f : Marks → Marks) : Store :=
  { st with marks := Memory.write Marks.clear st.marks w (f (st.marksAt w)) }

/-- Clear every mark of the store words `p` names (R8, R9, R19). -/
def Store.clearMarks (st : Store) (p : Nat → Bool) : Store :=
  { st with marks := Memory.update Marks.clear (fun w m => if p w then Marks.clear else m) st.marks }

/-- Clear FRESH on the store words `p` names (R75, R80). -/
def Store.clearFresh (st : Store) (p : Nat → Bool) : Store :=
  { st with marks := Memory.update Marks.clear (fun w m => if p w then { m with fresh := false } else m) st.marks }

/-- Set owed on every valid byte of the store words `p` names (R146). -/
def Store.oweValid (st : Store) (p : Nat → Bool) : Store :=
  { st with marks := Memory.update Marks.clear (fun w m => if p w then { m with owed := m.valid } else m) st.marks }

/-- Set valid and clear owed on lanes: the byte's value is the image's and memory is to have it (R44, R50, R66). -/
def Marks.settle (l : Lanes) (m : Marks) : Marks := { m with valid := m.valid ||| l, owed := m.owed &&& ~~~l }

/-- Set valid and owed on lanes: memory lacks the value (R45, R50, R67). -/
def Marks.owe (l : Lanes) (m : Marks) : Marks := { m with valid := m.valid ||| l, owed := m.owed ||| l }

/-- Set owed on lanes that are valid already: the purge takes a value back (R52, R53). -/
def Marks.oweBack (l : Lanes) (m : Marks) : Marks := { m with owed := m.owed ||| (l &&& m.valid) }

/-- Clear owed on lanes: a write of them has ended (R61). -/
def Marks.clearOwed (l : Lanes) (m : Marks) : Marks := { m with owed := m.owed &&& ~~~l }

/-- The word has been read from memory: HELD, and FRESH where `f` says so (R77, R83). -/
def Marks.sampled (f : Bool) (m : Marks) : Marks := { m with held := true, fresh := m.fresh || f }

/-! ## Windows (01, 1.2) -/

/-- All window numbers in ascending order. -/
def allWin : List WinIdx := [0, 1, 2, 3, 4, 5, 6, 7, 8, 9, 10, 11, 12, 13, 14, 15]

/-- The first word address after a range. -/
def Fields.stop (f : Fields) : Nat := f.base.toNat + f.length.toNat

/-- Whether an address lies in the range of these fields. -/
def Fields.covers (f : Fields) (a : Addr) : Bool := decide (f.base.toNat ≤ a.toNat) && decide (a.toNat < f.stop)

/-- Whether an address lies in the window (1.2). -/
def Window.covers (w : Window) (a : Addr) : Bool := w.defined && w.record.covers a

/-- The window an address lies in, or none: then it is a plain address. -/
def findWin (ws : Windows) (a : Addr) : Option WinIdx := allWin.find? fun n => ws[n].covers a

/-- Words of the window. -/
def Window.words (w : Window) : Nat := w.record.length.toNat

/-- The word address `off` words into the window. -/
def Window.addrAt (w : Window) (off : Nat) : Addr := w.record.base + BitVec.ofNat 22 off

/-- The place of an address in the window. -/
def Window.placeOf (w : Window) (a : Addr) : Nat := a.toNat - w.record.base.toNat

/-- The store word of the image slice for the word `off` words into the window (04). -/
def Window.imageAt (w : Window) (off : Nat) : Nat := w.record.imageBase.toNat + off

/-- The store word of the safe slice for the word `off` words into the window (R68). -/
def Window.safeAt (w : Window) (off : Nat) : Nat := w.record.safeBase.toNat + off

/-- Whether a store word lies in the image slice of these fields. -/
def Fields.inImage (f : Fields) (w : Nat) : Bool :=
  decide (f.imageBase.toNat ≤ w) && decide (w < f.imageBase.toNat + f.length.toNat)

/-- Whether a store word lies in the image slice of a defined window. -/
def inSomeImage (ws : Windows) (w : Nat) : Bool := allWin.any fun n => ws[n].defined && ws[n].record.inImage w

/-- Whether a store word lies in the image slice of a defined INPUT window. -/
def inInputImage (ws : Windows) (w : Nat) : Bool :=
  allWin.any fun n => ws[n].defined && decide (ws[n].record.kind = .input) && ws[n].record.inImage w

/-- The store word that the image slice of window `n`, of this kind, holds for an address: none where the window is not such a
window any more, so that no event sets a mark outside an image slice (R58, log 21). -/
def imageWord (ws : Windows) (k : Kind) (n : WinIdx) (a : Addr) : Option Nat :=
  if ws[n].covers a ∧ ws[n].record.kind = k then some (ws[n].imageAt (ws[n].placeOf a)) else none

/-- Whether the fields describe a window with a safe slice (1.2). -/
def Fields.hasSafe (f : Fields) : Bool := decide (f.kind = .output) && decide (f.policy = .pattern)

/-- A defined OUTPUT window. -/
def Window.isOutput (w : Window) : Bool := w.defined && decide (w.record.kind = .output)

/-- A defined INPUT window. -/
def Window.isInput (w : Window) : Bool := w.defined && decide (w.record.kind = .input)

/-- Frozen for routing and the arbiter: FROZEN or THAW-PENDING (Table 7-1). -/
def Freeze.cutOff : Freeze → Bool
  | .frozen | .thawPending => true
  | .opened | .freezePending => false

/-- Frozen at a mark: FROZEN or FREEZE-PENDING (Table 7-1). -/
def Freeze.freezing : Freeze → Bool
  | .frozen | .freezePending => true
  | .opened | .thawPending => false

/-- The frozen set (R106). -/
def frozenSet (ws : Windows) : List WinIdx := allWin.filter fun n => ws[n].freeze.cutOff

/-- Change every window. -/
def mapWin (f : WinIdx → Window → Window) (v : Windows) : Windows :=
  #v[f 0 v[0], f 1 v[1], f 2 v[2], f 3 v[3], f 4 v[4], f 5 v[5], f 6 v[6], f 7 v[7], f 8 v[8], f 9 v[9], f 10 v[10],
    f 11 v[11], f 12 v[12], f 13 v[13], f 14 v[14], f 15 v[15]]

/-- Give window `n` a freeze state. -/
def setFreezeState (ws : Windows) (n : WinIdx) (f : Freeze) : Windows := ws.set n { ws[n] with freeze := f }

/-- Whether an address lies in a window that is cut off from memory: the arbiter's test (R98). -/
def cutOffAddr (ws : Windows) (a : Addr) : Bool := allWin.any fun n => ws[n].covers a && ws[n].freeze.cutOff

/-! ## Counting entries (R47) -/

/-- Entries in the open stage. -/
def openCount (s : State) : Nat := s.pool.openStage.length

/-- One if the write in flight is of an entry that its record no longer holds. -/
def orphanCount (mp : Option PortAccess) : Nat :=
  match mp with
  | some { owner := .entry _ .purged, .. } => 1
  | some { owner := .entry _ .dropped, .. } => 1
  | _ => 0

/-- Entries held for the release queue: those of its records, and one whose write is in flight after its record gave it up. -/
def queuedCount (s : State) : Nat := (s.release.queue.map (·.entries.length)).sum + orphanCount s.mp

/-- Free entries. -/
def freeCount (s : State) : Nat := Config.poolSize - openCount s - queuedCount s

/-- The live stage-low condition (R48). -/
def stageLowCondition (s : State) : Bool :=
  decide (s.pool.threshold ≠ 0) && decide (freeCount s ≤ s.pool.threshold.toNat)

/-! ## The two ports (R1, R2) -/

/-- End the controller access: CP-ACK with the data, or CP-FAIL with zero on CP-D. -/
def endAccess (ok : Bool) (data : Word) (s : State) : State := s.setCp (.ended ok (!ok) (if ok then data else 0))

/-- Let the controller access wait. -/
def waitFor (w : Wait) (o : Outstanding) (s : State) : State := s.setCp (.outstanding { o with wait := w })

/-- The access has had the effect that its treatment names beside the pass. -/
def Outstanding.took (o : Outstanding) : Outstanding := { o with effectTaken := true }

/-- The port can begin an access: none in flight, and MP-ACK and MP-FAIL both negated (R2). -/
def portFree (s : State) : Bool := s.mp.isNone && !s.lines.mpAck && !s.lines.mpFail

/-- Take the levels of MP-ACK and MP-FAIL. -/
def samplePort (l : PortLines) (s : State) : State := s.setLines { s.lines with mpAck := l.ack, mpFail := l.fail }

/-- Whether the arbiter may begin an access to this address (R98). -/
def mayBegin (s : State) (a : Addr) : Bool := !cutOffAddr s.win a

/-- Begin an access on the Memory Port. -/
def beginAccess (p : PortAccess) (s : State) : State := s.setMp (some p)

/-- What the bridge drives on MP-REQ. -/
def mpReq (s : State) : Bool := s.mp.isSome

/-- What the bridge drives on CP-ACK. -/
def cpAck (s : State) : Bool :=
  match s.cp with
  | .ended ack _ _ => ack
  | _ => false

/-- What the bridge drives on CP-FAIL. -/
def cpFail (s : State) : Bool :=
  match s.cp with
  | .ended _ fail _ => fail
  | _ => false

end Sys2Proof.Machine
end

