-- ==== Sys2Proof/Machine/Matcher.lean ====
section
/-! DEFINITION. The address matcher: the class of a controller access and the treatment Table 1-3 names for it (1.5). -/

namespace Sys2Proof.Machine

/-- A mark write: a write whose address is the mark address while the mark is enabled, whatever its enables (R11). -/
def isMark (s : State) (a : Access) : Bool := a.write && s.mark.enabled && decide (a.addr = s.mark.addr)

/-- The treatments of Table 1-3, with the window where there is one, and the acknowledgement of R16. -/
inductive Treatment where
  | pass
  /-- Pass, and begin cycle 1 or the first cycle of a resumption (R21). -/
  | firstMark
  /-- Pass, and take a boundary (R22). -/
  | boundary
  /-- Pass, and latch INPUT WRITE (R85). -/
  | passNoted
  | held (n : WinIdx)
  /-- Discard; `noted`: and latch INPUT WRITE (R13). -/
  | discard (noted : Bool)
  /-- A write to a window with no lane enabled (R16). -/
  | ack
  | sampled (n : WinIdx)
  | passImage (n : WinIdx)
  | imageOwed (n : WinIdx)
  | merged (n : WinIdx)
  | mergedNoMem (n : WinIdx)
  | staged (n : WinIdx)
  | endingStall
  deriving DecidableEq, Repr

/-- The effect of a mark write by mode (Table 1-3, Table 2-2). -/
def markTreatment (m : Mode) : Treatment :=
  match m with
  | .armed => .firstMark
  | .run => .boundary
  | .idle | .ending | .safe => .pass

/-- An access to an input window (Table 1-3); `cut`: the window is FROZEN or THAW-PENDING. -/
def inputTreatment (m : Mode) (n : WinIdx) (write cut : Bool) : Treatment :=
  match m, write, cut with
  | .idle, _, _ => .pass
  | .ending, _, _ => .pass
  | .armed, _, false => .pass
  | .armed, false, true => .held n
  | .armed, true, true => .discard true
  | .run, false, false => .sampled n
  | .run, true, false => .passNoted
  | .run, false, true => .held n
  | .run, true, true => .discard true
  | .safe, false, _ => .held n
  | .safe, true, _ => .discard true

/-- An access to an output window (Table 1-3). -/
def outputTreatment (m : Mode) (n : WinIdx) (write cut : Bool) : Treatment :=
  match m, write, cut with
  | .idle, _, _ => .pass
  | .armed, true, false => .passImage n
  | .armed, true, true => .imageOwed n
  | .run, true, _ => .staged n
  | .ending, true, _ => .endingStall
  | .safe, true, _ => .discard false
  | _, false, false => .merged n
  | _, false, true => .mergedNoMem n

/-- A write with no lane enabled is acknowledged at once in these modes, where it goes to a window (R16). -/
def acksEmpty : Mode → Bool
  | .armed | .run | .safe => true
  | .idle | .ending => false

/-- The class of an access, by the mark and the window table as they stand when it is taken (R11). -/
def classify (s : State) (a : Access) : AccessClass :=
  if isMark s a then .mark
  else
    match findWin s.win a.addr with
    | none => .plain
    | some n =>
      match (s.win[n]).record.kind with
      | .input => .input n
      | .output => .output n

/-- A write with no lane enabled that its window acknowledges at once (R16). -/
def isEmptyWrite (s : State) (a : Access) : Bool := a.write && decide (a.enables = 0) && acksEmpty s.ctl.mode

/-- The treatment of an access of a class, by the mode and, for a window access, the freeze state of its window (R12). -/
def treatmentOf (s : State) (c : AccessClass) (a : Access) : Treatment :=
  match c with
  | .plain => .pass
  | .mark => markTreatment s.ctl.mode
  | .input n => if isEmptyWrite s a then .ack else inputTreatment s.ctl.mode n a.write (s.win[n]).freeze.cutOff
  | .output n => if isEmptyWrite s a then .ack else outputTreatment s.ctl.mode n a.write (s.win[n]).freeze.cutOff

/-- The treatment of a controller access at its taking (R12). -/
def treatment (s : State) (a : Access) : Treatment := treatmentOf s (classify s a) a

end Sys2Proof.Machine
end

