-- ==== Sys2Proof/Machine/Sampling.lean ====
section
/-! DEFINITION. The input sampler and its walk (05). -/

namespace Sys2Proof.Machine

/-- The words of a window, as walk positions in ascending address. -/
def windowWords (ws : Windows) (n : WinIdx) : List (WinIdx × Nat) := (List.range ws[n].words).map fun k => (n, k)

/-- The words of a walk in the order of R76. -/
def walkWords (ws : Windows) (set : List WinIdx) : List (WinIdx × Nat) := set.flatMap (windowWords ws)

/-- The words of a walk after a position. -/
def wordsAfter (ws : Windows) (set : List WinIdx) (p : WinIdx × Nat) : List (WinIdx × Nat) :=
  ((windowWords ws p.1).drop (p.2 + 1)) ++ walkWords ws (set.filter fun n => decide (p.1 < n))

/-- Whether the word at a walk position is FRESH. -/
def isFresh (ws : Windows) (st : Store) (p : WinIdx × Nat) : Bool := (st.marksAt (ws[p.1].imageAt p.2)).fresh

/-- The walk finishes (R78). -/
def Sampler.finish (w : Sampler) : Sampler := { w with state := .finished, position := none, done := true }

/-- The walk goes to the first of these words that is not FRESH, and finishes if there is none (R76, R78). -/
def Sampler.goTo (w : Sampler) (ws : Windows) (st : Store) (l : List (WinIdx × Nat)) : Sampler :=
  match l.find? fun p => !isFresh ws st p with
  | some p => { w with position := some p }
  | none => w.finish

/-- The walk leaves the word at its position (R76, R77). -/
def walkOn (s : State) : State :=
  match s.sampler.state, s.sampler.position with
  | .walking, some p => s.setSampler (s.sampler.goTo s.win s.image (wordsAfter s.win s.sampler.walkSet p))
  | _, _ => s

/-- A walk read in flight has a mark or SAFE entry come upon it (R77, R86). -/
def Owner.crossMark : Owner → Owner
  | .walkRead n _ => .walkRead n true
  | o => o

/-- The same for the port. -/
def crossMark (mp : Option PortAccess) : Option PortAccess := mp.map fun p => { p with owner := p.owner.crossMark }

/-- The input windows a walk covers, by the freeze states at its mark: OPEN or THAW-PENDING (R75). -/
def walkSetAt (ws : Windows) : List WinIdx := allWin.filter fun n => ws[n].isInput && !ws[n].freeze.freezing

/-- A walk begins (R75); `atMark` holds the freeze states as they stood when the mark was taken. -/
def walkBegin (atMark : Windows) (s : State) : State :=
  let set := walkSetAt atMark
  let st := s.image.clearFresh (inInputImage s.win)
  let w : Sampler := { state := .walking, position := none, walkSet := set, done := false }
  ((s.setImage st).setMp (crossMark s.mp)).setSampler (w.goTo s.win st (walkWords s.win set))

/-- The sampler at the stopping boundary (R80). -/
def walkStop (s : State) : State :=
  ((s.setImage (s.image.clearFresh (inInputImage s.win))).setMp (crossMark s.mp)).setSampler
    { state := .stopped, position := none, walkSet := [], done := false }

/-- The sampler at SAFE entry: the walk is abandoned, FRESH marks stay as they stand (R86). -/
def walkAbandon (s : State) : State :=
  (s.setMp (crossMark s.mp)).setSampler { state := .stopped, position := none, walkSet := [], done := false }

/-- The sampler's request to the arbiter (Table 5-1). -/
inductive SamplerRequest where
  | none
  | waiting
  | inFlight
  deriving DecidableEq, Repr

/-- A walk read is in flight. -/
def walkReadInFlight (s : State) : Bool :=
  match s.mp with
  | some { owner := .walkRead _ _, .. } => true
  | _ => false

/-- The sampler's request as it stands (Table 5-1): it is not held apart from the walk position. -/
def samplerRequest (s : State) : SamplerRequest :=
  if walkReadInFlight s then .inFlight
  else if s.sampler.state = .walking ∧ s.sampler.position.isSome then .waiting
  else .none

/-- A word read from memory is stored in the slice with HELD, and with FRESH where `f` says so (R77, R83). -/
def storeSample (n : WinIdx) (a : Addr) (v : Word) (f : Bool) (s : State) : State :=
  match imageWord s.win .input n a with
  | some w => s.setImage ((s.image.writeLanes w allLanes v).mark w (Marks.sampled f))
  | none => s

/-- A sampler request is granted (R76): a FRESH word, or one in a window cut off from memory, is passed over; otherwise the read
begins and the grant is the latest background grant (R97). -/
def grantSampler (s : State) : State :=
  match s.sampler.position with
  | none => s
  | some p =>
    let a := (s.win[p.1]).addrAt p.2
    if isFresh s.win s.image p || !mayBegin s a then walkOn s
    else (beginAccess ⟨a, false, allLanes, 0, .walkRead p.1 false⟩ s).setBackground .sampler

end Sys2Proof.Machine
end

