-- ==== Sys2Proof/Machine/Access.lean ====
section
/-! DEFINITION. The treatments that raise no cause, carried out: pass, held value, image with owed, merged read and sampled read (01, 04,
05); and the grant of a controller-service request. -/

namespace Sys2Proof.Machine

/-- Write lanes of an access into the image word of window `n`, with the marks that `f` gives (R44, R45, R66, R67). -/
def writeImage (n : WinIdx) (a : Addr) (l : Lanes) (v : Word) (f : Marks → Marks) (s : State) : State :=
  match imageWord s.win .output n a with
  | some w => s.setImage ((s.image.writeLanes w l v).mark w f)
  | none => s

/-- The held value of an input word: the slice word where HELD is set, and zero where it is not (R13). A window that does not
hold the address any more has no word for it (log 30). -/
def heldValue (s : State) (n : WinIdx) (a : Addr) : Word :=
  match imageWord s.win .input n a with
  | some w => if (s.image.marksAt w).held then s.image.word w else 0
  | none => 0

/-- The open-stage entry of a word (R37, R56). -/
def findEntry (l : List Entry) (a : Addr) : Option Entry := l.find? fun e => decide (e.addr = a)

/-- The lanes the open stage supplies to a merged read, in RUN alone (R56). -/
def stagedLanes (s : State) (a : Addr) : Lanes × Word :=
  if s.ctl.mode = .run then
    match findEntry s.pool.openStage a with
    | some e => (e.mask, e.data)
    | none => (0, 0)
  else (0, 0)

/-- What a merged read gathers in the bridge, zero on the missing lanes, and the missing lanes (R63). -/
def gather (s : State) (n : WinIdx) (a : Addr) : Word × Lanes :=
  let image : Lanes × Word :=
    match imageWord s.win .output n a with
    | some w => ((s.image.marksAt w).valid, s.image.word w)
    | none => (0, 0)
  let staged := stagedLanes s a
  (mergeLanes staged.1 staged.2 (mergeLanes image.1 image.2 0), ~~~(staged.1 ||| image.1))

/-- A sampler read of this word is in flight (R81). -/
def sharedReadOf (s : State) (a : Addr) : Bool :=
  match s.mp with
  | some { owner := .walkRead _ _, addr := b, .. } => decide (a = b)
  | _ => false

/-- A merged read (R63, R64): answered at once where every lane is found. -/
def mergedRead (n : WinIdx) (o : Outstanding) (s : State) : State :=
  let g := gather s n o.access.addr
  if g.2 = 0 then endAccess true g.1 s else waitFor (.service .merged) o s

/-- A read of an input word that is not FRESH: it shares a sampler read of the word in flight, or is a priority fetch (R81, R82). -/
def readInput (o : Outstanding) (s : State) : State :=
  if sharedReadOf s o.access.addr then waitFor .shared o s else waitFor (.service .fetch) o s

/-- A sampled read (R81). -/
def sampledRead (n : WinIdx) (o : Outstanding) (s : State) : State :=
  match imageWord s.win .input n o.access.addr with
  | some w => if (s.image.marksAt w).fresh then endAccess true (s.image.word w) s else readInput o s
  | none => readInput o s

/-- Carry out a treatment apart from the effects on the cycle controller, the pool and the causes. -/
def carryOut (t : Treatment) (o : Outstanding) (s : State) : State :=
  let a := o.access
  match t with
  | .pass | .firstMark | .boundary | .passNoted => waitFor (.service .pass) o s
  | .held n => endAccess true (heldValue s n a.addr) s
  | .discard _ | .ack => endAccess true 0 s
  | .sampled n => sampledRead n o s
  | .passImage _ => waitFor (.service .passImage) o s
  | .imageOwed n => endAccess true 0 (writeImage n a.addr a.enables a.data (Marks.owe a.enables) s)
  | .merged n => mergedRead n o s
  | .mergedNoMem n => endAccess true (gather s n a.addr).1 s
  | .staged _ => s
  | .endingStall => waitFor .endingStall o s

/-- The Memory Port access of a controller access that passes: the same lines (R3). -/
def passAccess (a : Access) (o : Owner) : PortAccess := ⟨a.addr, a.write, a.enables, a.data, o⟩

/-- The access has begun on the Memory Port. -/
def begin (p : PortAccess) (o : Outstanding) (s : State) : State :=
  waitFor .begun o (beginAccess p s)

/-- A controller-service request is granted (R97, R98): its access begins, a merged read that finds every lane now ends, and an access to a
window cut off from memory is withdrawn. -/
def grantController (s : State) : State :=
  match s.cp with
  | .outstanding o =>
    match o.wait with
    | .service k =>
      if !mayBegin s o.access.addr then s
      else
        match k, o.cls with
        | .passImage, .output n => begin (passAccess o.access (.passImage n)) o s
        | .torn, .output n => begin (passAccess o.access (.torn n)) o s
        | .fetch, .input n => begin ⟨o.access.addr, false, allLanes, 0, .fetch n⟩ o s
        | .merged, .output n =>
          let g := gather s n o.access.addr
          if g.2 = 0 then endAccess true g.1 s
          else begin ⟨o.access.addr, false, g.2, 0, .merged g.1 g.2⟩ o s
        | _, _ => begin (passAccess o.access .pass) o s
    | _ => s
  | _ => s

/-- A controller-service request waits (Table 6-3). An access that was taken in IDLE before a window was committed over its address, and
finds that window cut off from memory, has its request withdrawn and leaves the arbiter to the others (R98, log 30). -/
def controllerWaiting (s : State) : Bool :=
  match s.cp with
  | .outstanding { wait := .service _, access := a, .. } => mayBegin s a.addr
  | _ => false

end Sys2Proof.Machine
end

