-- ==== Sys2Proof/Machine/Cycle.lean ====
section
/-! DEFINITION. The period counter, the period records, the capture and the watchdog (10), and the cycle number (02). -/

namespace Sys2Proof.Machine

/-- The period counter and the watchdog restart: the count is 0 and runs, and the limit is ten times the setting (R153, R159). -/
def Timing.restart (t : Timing) : Timing :=
  { t with count := 0, running := true, wdLimit := 10 * t.wdPeriod.toNat, wdState := .running }

/-- The counter stops and keeps its count; the watchdog stops (R154, R160). -/
def Timing.halt (t : Timing) : Timing := { t with running := false, wdState := .stopped }

/-- The counter stops at 0 after the stopping boundary's sample; the watchdog stops (R154, R160). -/
def Timing.haltAtZero (t : Timing) : Timing := { t with count := 0, running := false, wdState := .stopped }

/-- A sample is offered to the capture (R157). -/
def Timing.offer (t : Timing) (sample : BitVec 24) : Timing :=
  if t.prescaleCount + 1 = t.prescale then
    { t with prescaleCount := 0, capture := sample, captured := true, captureOverrun := t.captureOverrun || t.captured }
  else { t with prescaleCount := t.prescaleCount + 1 }

/-- The count is taken as the period sample (R155). -/
def Timing.sample (t : Timing) : Timing :=
  { t with last := t.count, longest := if t.longest < t.count then t.count else t.longest }.offer t.count

/-- A further 10 µs have passed: a running counter rises by one and stays at its greatest value (R153). -/
def Timing.advance (t : Timing) : Timing :=
  if t.running ∧ t.count ≠ 0xFFFFFF#24 then { t with count := t.count + 1 } else t

/-- The count of a running watchdog has reached its limit (R160). -/
def Timing.wdReached (t : Timing) : Bool := decide (t.wdState = .running) && decide (t.wdLimit ≤ t.count.toNat)

/-- The next cycle number: 65535 is followed by 1 (R21, R22). -/
def nextCycle (n : BitVec 16) : BitVec 16 := if n = 0xFFFF#16 then 1 else n + 1

end Sys2Proof.Machine
end

