-- ==== Sys2Proof/Machine/Freezing.lean ====
section
/-! DEFINITION. Freeze states and the freeze timer (07). What a change of freeze state does to an outstanding access (R15) and to
the safe fill (R140) is added where the commands are. -/

namespace Sys2Proof.Machine

/-- The timer starts: running, with the range and the setting copied (R117). -/
def FreezeControl.startTimer (f : FreezeControl) : FreezeControl :=
  { f with running := true, startRange := f.range, remaining := f.setting }

/-- The timer stops with nothing remaining (R117). -/
def FreezeControl.stopTimer (f : FreezeControl) : FreezeControl := { f with running := false, remaining := 0 }

/-- The timer follows the frozen set from what it was to what it is (R117). -/
def FreezeControl.follow (f : FreezeControl) (before after : Windows) : FreezeControl :=
  match frozenSet before, frozenSet after with
  | [], _ :: _ => f.startTimer
  | _ :: _, [] => f.stopTimer
  | _, _ => f

/-- Give the windows other freeze states; the timer follows. -/
def setWindows (ws : Windows) (s : State) : State := (s.setWin ws).setFreeze (s.freeze.follow s.win ws)

/-- The freeze states after a boundary (R112) or after SAFE entry (R114): pending freezes are FROZEN, pending thaws OPEN. -/
def settlePending (ws : Windows) : Windows :=
  mapWin (fun _ w =>
    match w.freeze with
    | .freezePending => { w with freeze := .frozen }
    | .thawPending => { w with freeze := .opened }
    | .opened | .frozen => w) ws

/-- Windows that were THAW-PENDING (R112). -/
def thawing (ws : Windows) : List WinIdx := allWin.filter fun n => decide (ws[n].freeze = .thawPending)

/-- The flush set of the record formed at a boundary: the windows that were THAW-PENDING, with those of the first-flush set,
less the windows that were FROZEN or FREEZE-PENDING (R51, R112). -/
def boundaryFlushSet (ws : Windows) (firstFlush : List WinIdx) : List WinIdx :=
  allWin.filter fun n =>
    (decide (ws[n].freeze = .thawPending) || decide (n ∈ firstFlush)) && !ws[n].freeze.freezing

/-- Some byte of the window's image slice is owed. -/
def owesSome (ws : Windows) (st : Store) (n : WinIdx) : Bool :=
  st.marks.any fun c => ws[n].record.inImage c.1 && decide (c.2.owed ≠ 0)

/-- The OPEN OUTPUT windows whose image slice holds an owed byte: they join the first-flush set (R145, R148). -/
def owedOpenOutputs (ws : Windows) (st : Store) : List WinIdx :=
  allWin.filter fun n => ws[n].isOutput && decide (ws[n].freeze = .opened) && owesSome ws st n

/-- Join two sets of windows, in ascending index. -/
def joinWin (a b : List WinIdx) : List WinIdx := allWin.filter fun n => decide (n ∈ a) || decide (n ∈ b)

/-- The freeze state FREEZE n gives, by mode (Table 7-2). -/
def freezeTo (m : Mode) (f : Freeze) : Freeze :=
  match m, f with
  | .run, .opened => .freezePending
  | .run, .thawPending => .frozen
  | .armed, .opened => .frozen
  | .safe, .opened => .frozen
  | _, f => f

/-- The freeze state THAW n gives, by mode (Table 7-2). -/
def thawTo (m : Mode) (f : Freeze) : Freeze :=
  match m, f with
  | .run, .freezePending => .opened
  | .run, .frozen => .thawPending
  | .armed, .frozen => .opened
  | .safe, .frozen => .opened
  | _, f => f

end Sys2Proof.Machine
end

