-- ==== Sys2Proof/Machine/Flags.lean ====
section
/-! DEFINITION. The cause flags and everything computed from them: quietness, the lead cause, the chain lines and the live
conditions (08). Taking a cause's action is in Machine/SafeState.lean. -/

namespace Sys2Proof.Machine

/-- All causes in the order of their numbers. -/
def allCauses : List Cause :=
  [.wdog, .memory, .chain, .torn, .overrun, .stageLow, .freezeExpired, .inputWrite, .link, .powerOn]

/-- A cause's number (Table 8-1). -/
def Cause.num : Cause → Nat
  | .wdog => 0
  | .memory => 1
  | .chain => 2
  | .torn => 3
  | .overrun => 4
  | .stageLow => 5
  | .freezeExpired => 6
  | .inputWrite => 7
  | .link => 8
  | .powerOn => 9

/-- The cause with a number, if there is one. -/
def Cause.ofNum (n : Nat) : Option Cause := allCauses[n]?

/-- Fault class, which drives FLT-OUT; the others are alert class and drive ALR-OUT (Table 8-1). -/
def Cause.isFault : Cause → Bool
  | .wdog | .memory | .chain | .torn => true
  | .overrun | .stageLow | .freezeExpired | .inputWrite | .link | .powerOn => false

end Sys2Proof.Machine

namespace Sys2Proof

/-- The cause a level cause is. -/
def LevelCause.cause : LevelCause → Machine.Cause
  | .chain => .chain
  | .stageLow => .stageLow

end Sys2Proof

namespace Sys2Proof.Machine

/-- The bit of a cause in CAUSES and ACTIONS (Table 11-9). -/
def Cause.bit (c : Cause) : BitVec 10 := 1#10 <<< c.num

/-- The flag of a cause (R121). -/
def CauseUnit.flag (u : CauseUnit) (c : Cause) : Bool := u.flags.getLsbD c.num

/-- Whether a cause's action is SAFE (R127). -/
def CauseUnit.actionSafe (u : CauseUnit) (c : Cause) : Bool := u.actions.getLsbD c.num

/-- Set a flag. -/
def CauseUnit.setFlag (u : CauseUnit) (c : Cause) : CauseUnit := { u with flags := u.flags ||| c.bit }

/-- Clear a flag. -/
def CauseUnit.clearFlag (u : CauseUnit) (c : Cause) : CauseUnit := { u with flags := u.flags &&& ~~~c.bit }

/-- The state of a level cause. -/
def CauseUnit.level (u : CauseUnit) : LevelCause → Level
  | .chain => u.chain
  | .stageLow => u.stageLow

/-- Replace the state of a level cause. -/
def CauseUnit.setLevel (u : CauseUnit) (c : LevelCause) (l : Level) : CauseUnit :=
  match c with
  | .chain => { u with chain := l }
  | .stageLow => { u with stageLow := l }

/-- A quiet cause: its position in the priority list is Q or later and its action is CONTINUE (R130). -/
def CauseUnit.isQuiet (u : CauseUnit) (c : Cause) : Bool :=
  decide (u.quietMark.val ≤ u.priority.idxOf c) && !u.actionSafe c

/-- A cause that is set and not quiet: it drives its line and may lead (R131, R132). -/
def CauseUnit.drives (u : CauseUnit) (c : Cause) : Bool := u.flag c && !u.isQuiet c

/-- The lead cause (R131). -/
def CauseUnit.leadCause (u : CauseUnit) : Option Cause := u.priority.find? u.drives

/-- What the bridge drives on FLT-OUT (R132). -/
def fltOut (s : State) : Bool :=
  s.lines.fltIn || s.causes.forceFault || allCauses.any fun c => c.isFault && s.causes.drives c

/-- What the bridge drives on ALR-OUT (R132). -/
def alrOut (s : State) : Bool :=
  s.lines.alrIn || s.causes.forceAlert || allCauses.any fun c => !c.isFault && s.causes.drives c

/-- The live condition of a level cause (8.2). -/
def condition (s : State) : LevelCause → Bool
  | .chain => s.lines.fltIn
  | .stageLow => stageLowCondition s

/-- A qualifying time in REFCLK periods (R122). -/
def Level.limit (l : Level) : Nat := l.time.toNat * Config.refclkPerMs

/-- Some cause with action SAFE has its flag set (R144). -/
def someSafeFlag (u : CauseUnit) : Bool := allCauses.any fun c => u.flag c && u.actionSafe c

/-- The host clears one cause (R126). -/
def CauseUnit.hostClear (u : CauseUnit) : Cause → CauseUnit
  | .chain => if u.chain.time = 0 then u else { u.clearFlag .chain with chain := { u.chain with timer := 0 } }
  | .stageLow =>
    if u.stageLow.time = 0 then u else { u.clearFlag .stageLow with stageLow := { u.stageLow with timer := 0 } }
  | c => u.clearFlag c

/-- The host writes CAUSES: every cause whose position is 1 is cleared (R125). -/
def CauseUnit.hostWrite (u : CauseUnit) (v : Word) : CauseUnit :=
  allCauses.foldl (fun u c => if v.getLsbD c.num then u.hostClear c else u) u

end Sys2Proof.Machine
end

