-- ==== Sys2Proof/Machine/Operands.lean ====
section
/-! DEFINITION. The layouts of the values and codes of the management link, read and written (11.7, R175). -/

namespace Sys2Proof.Machine

/-- A one-bit position of a layout. -/
def bitAt (b : Bool) (k : Nat) : Word := if b then 1#32 <<< k else 0

/-- A field of a layout whose low bit is bit `k`. -/
def fieldAt {n : Nat} (x : BitVec n) (k : Nat) : Word := x.setWidth 32 <<< k

/-! ## Codes -/

/-- Status codes (Table 11-7). -/
def Status.code : Status → Byte
  | .ack => 1
  | .accepted => 2
  | .busy => 3
  | .refused => 4
  | .unknown => 5
  | .check => 6

/-- Reason and result codes (Table 11-8). -/
def Reason.code : Reason → BitVec 4
  | .none => 0
  | .mode => 1
  | .locked => 2
  | .argument => 3
  | .range => 4
  | .overlap => 5
  | .slice => 6
  | .mark => 7
  | .ok => 8
  | .abandoned => 9
  | .pending => 10

/-- Mode numbers (Table 11-9, STATE). -/
def Mode.code : Mode → BitVec 3
  | .idle => 0
  | .armed => 1
  | .run => 2
  | .ending => 3
  | .safe => 4

/-- Freeze state codes (Table 11-10). -/
def Freeze.code : Freeze → BitVec 2
  | .opened => 0
  | .freezePending => 1
  | .frozen => 2
  | .thawPending => 3

/-- Safe policy codes as read (Table 11-10). -/
def Policy.code : Policy → BitVec 2
  | .hold => 0
  | .zero => 1
  | .pattern => 2

/-- Safe policy as written: 10 and 11 are both PATTERN (Table 11-10). -/
def Policy.ofCode (x : BitVec 2) : Policy := if x = 0 then .hold else if x = 1 then .zero else .pattern

/-- The commands of Table 11-3. -/
inductive Command where
  | start
  | stop
  | resume
  | safe
  | freeze
  | thaw
  | commitWindow
  | dropWindow
  | unlock
  | reset
  | clearLongest
  deriving DecidableEq, Repr

/-- Command codes (Table 11-3). -/
def Command.ofCode (x : Byte) : Option Command :=
  match x.toNat with
  | 1 => some .start
  | 2 => some .stop
  | 3 => some .resume
  | 4 => some .safe
  | 5 => some .freeze
  | 6 => some .thaw
  | 7 => some .commitWindow
  | 8 => some .dropWindow
  | 9 => some .unlock
  | 10 => some .reset
  | 11 => some .clearLongest
  | _ => none

/-- The code of a command in flight (R169, Table 11-3). -/
def InFlight.code : InFlight → Byte
  | .commitWindow _ => 0x07
  | .dropWindow _ => 0x08
  | .reissue => 0x03

/-- The argument of a command in flight as LAST RESULT holds it: zero for RESUME, whose argument is ignored (R169). -/
def InFlight.argument : InFlight → Byte
  | .commitWindow n => BitVec.ofNat 8 n.val
  | .dropWindow n => BitVec.ofNat 8 n.val
  | .reissue => 0

/-- The items of Table 11-4. -/
inductive Item where
  | ident
  | state
  | lastResult
  | causes
  | conditions
  | leadCause
  | actions
  | priorityA
  | priorityB
  | quietMark
  | qualify (c : LevelCause)
  | force
  | markAddress
  | markerAddress
  | watchdogPeriod
  | cycleNumber
  | lastPeriod
  | longestPeriod
  | capture
  | prescale
  | poolLevels
  | stageLowThreshold
  | freezeTimer
  | frozenSet
  | resumePolicy
  | lock
  | imagePointer
  | imageData
  | imageMarks
  | window (n : WinIdx) (part : DescPart)
  deriving DecidableEq, Repr

/-- Item numbers (Table 11-4). -/
def Item.ofNumber (x : Byte) : Option Item :=
  match x.toNat with
  | 0x00 => some .ident
  | 0x01 => some .state
  | 0x02 => some .lastResult
  | 0x08 => some .causes
  | 0x09 => some .conditions
  | 0x0A => some .leadCause
  | 0x0B => some .actions
  | 0x0C => some .priorityA
  | 0x0D => some .priorityB
  | 0x0E => some .quietMark
  | 0x0F => some (.qualify .chain)
  | 0x10 => some (.qualify .stageLow)
  | 0x11 => some .force
  | 0x18 => some .markAddress
  | 0x19 => some .markerAddress
  | 0x20 => some .watchdogPeriod
  | 0x21 => some .cycleNumber
  | 0x22 => some .lastPeriod
  | 0x23 => some .longestPeriod
  | 0x24 => some .capture
  | 0x25 => some .prescale
  | 0x28 => some .poolLevels
  | 0x29 => some .stageLowThreshold
  | 0x30 => some .freezeTimer
  | 0x31 => some .frozenSet
  | 0x38 => some .resumePolicy
  | 0x39 => some .lock
  | 0x40 => some .imagePointer
  | 0x41 => some .imageData
  | 0x42 => some .imageMarks
  | k =>
    if 0x80 ≤ k ∧ k < 0xA0 then
      some (.window ⟨(k - 0x80) / 2 % 16, Nat.mod_lt _ (by decide)⟩ (if k % 2 = 0 then .a else .b))
    else none

/-- Items that cannot be written (Table 11-4). -/
def Item.readOnly : Item → Bool
  | .ident | .state | .lastResult | .conditions | .leadCause | .cycleNumber | .lastPeriod | .longestPeriod | .capture
  | .poolLevels | .frozenSet | .imageMarks => true
  | _ => false

/-- A window number carried by a command's argument, where it is 0 to 15 (Table 11-3). -/
def windowArg (v : Word) : Option WinIdx :=
  if h : v.toNat < 16 then some ⟨v.toNat, h⟩ else none

/-! ## Layouts read (Table 11-9, Table 11-10, Table 11-11) -/

/-- MARK ADDRESS and MARKER ADDRESS. -/
def BusMark.layout (m : BusMark) : Word := fieldAt m.addr 0 ||| bitAt m.enabled 31

/-- WINDOW n A. -/
def Fields.layoutA (f : Fields) : Word :=
  fieldAt f.base 0 ||| bitAt (decide (f.kind = .output)) 24 ||| fieldAt f.policy.code 25

/-- WINDOW n B: descriptor fields with Defined and Freeze state from the record (R5). -/
def Window.layoutB (w : Window) : Word :=
  fieldAt w.descriptor.length 0 ||| bitAt w.defined 9 ||| fieldAt w.descriptor.imageBase 10
    ||| fieldAt w.descriptor.safeBase 20 ||| fieldAt w.freeze.code 30

/-- A priority position: four bits holding the cause number. -/
def priorityNibble (l : List Cause) (pos k : Nat) : Word :=
  match l[pos]? with
  | some c => fieldAt (BitVec.ofNat 4 c.num) k
  | none => 0

/-- PRIORITY LIST A. -/
def layoutPriorityA (l : List Cause) : Word :=
  priorityNibble l 0 0 ||| priorityNibble l 1 4 ||| priorityNibble l 2 8 ||| priorityNibble l 3 12
    ||| priorityNibble l 4 16 ||| priorityNibble l 5 20 ||| priorityNibble l 6 24 ||| priorityNibble l 7 28

/-- PRIORITY LIST B. -/
def layoutPriorityB (l : List Cause) : Word := priorityNibble l 8 0 ||| priorityNibble l 9 4

/-- IMAGE MARKS. -/
def Marks.layout (m : Marks) : Word :=
  fieldAt m.valid 0 ||| fieldAt m.owed 4 ||| bitAt m.held 8 ||| bitAt m.fresh 9

/-- FROZEN SET: bit n for window n. -/
def layoutWinSet (l : List WinIdx) : Word := l.foldl (fun w n => w ||| bitAt true n.val) 0

/-- The marker word (Table 11-11). -/
def markerWord (cycle : BitVec 16) (first torn flush safe reissue : Bool) : Word :=
  fieldAt cycle 0 ||| bitAt first 16 ||| bitAt torn 17 ||| bitAt flush 18 ||| bitAt safe 19 ||| bitAt reissue 20

/-- The value of an item as it stands (R166 step 2, R175). -/
def itemValue (s : State) : Item → Word
  | .ident => fieldAt 0x1620#16 16 ||| fieldAt 1#8 8 ||| fieldAt s.identity 0
  | .state =>
    fieldAt s.ctl.mode.code 0 ||| bitAt s.ctl.stopPending 3 ||| bitAt s.sampler.done 4 ||| bitAt s.fill.active 5
      ||| bitAt s.reissue.resuming 6 ||| bitAt s.mg.command.isSome 7 ||| bitAt s.mg.done 8 ||| bitAt s.mg.collision 9
  | .lastResult =>
    fieldAt s.mg.lastResult.result.code 0 ||| fieldAt s.mg.lastResult.code 8 ||| fieldAt s.mg.lastResult.argument 16
  | .causes => fieldAt s.causes.flags 0
  | .conditions =>
    bitAt s.lines.fltIn 0 ||| bitAt (stageLowCondition s) 1 ||| bitAt s.lines.alrIn 2 ||| bitAt (fltOut s) 3
      ||| bitAt (alrOut s) 4
  | .leadCause =>
    match s.causes.leadCause with
    | some c => BitVec.ofNat 32 c.num
    | none => 15
  | .actions => fieldAt s.causes.actions 0
  | .priorityA => layoutPriorityA s.causes.priority
  | .priorityB => layoutPriorityB s.causes.priority
  | .quietMark => BitVec.ofNat 32 s.causes.quietMark.val
  | .qualify c => fieldAt (s.causes.level c).time 0
  | .force => bitAt s.causes.forceFault 0 ||| bitAt s.causes.forceAlert 1
  | .markAddress => s.mark.layout
  | .markerAddress => s.marker.layout
  | .watchdogPeriod => fieldAt s.timing.wdPeriod 0
  | .cycleNumber => fieldAt s.ctl.number 0
  | .lastPeriod => fieldAt s.timing.last 0
  | .longestPeriod => fieldAt s.timing.longest 0
  | .capture => fieldAt s.timing.capture 0 ||| bitAt s.timing.captured 24 ||| bitAt s.timing.captureOverrun 25
  | .prescale => fieldAt s.timing.prescale 0
  | .poolLevels =>
    fieldAt (BitVec.ofNat 9 (openCount s)) 0 ||| fieldAt (BitVec.ofNat 9 (queuedCount s)) 16
      ||| fieldAt (BitVec.ofNat 3 s.release.queue.length) 28
  | .stageLowThreshold => fieldAt s.pool.threshold 0
  | .freezeTimer =>
    fieldAt s.freeze.setting 0 ||| bitAt (decide (s.freeze.range = .minutes)) 8 ||| bitAt s.freeze.running 15
      ||| fieldAt s.freeze.remaining 16
  | .frozenSet => layoutWinSet (frozenSet s.win)
  | .resumePolicy => bitAt (decide (s.reissue.policy = .reissue)) 0
  | .lock => bitAt s.mg.locked 0
  | .imagePointer => fieldAt s.pointer 0
  | .imageData => s.image.word s.pointer.toNat
  | .imageMarks => (s.image.marksAt s.pointer.toNat).layout
  | .window n .a => (s.win[n]).descriptor.layoutA
  | .window n .b => (s.win[n]).layoutB

/-! ## Layouts written -/

/-- MARK ADDRESS and MARKER ADDRESS written. -/
def BusMark.ofWord (v : Word) : BusMark := ⟨v.extractLsb' 0 22, v.getLsbD 31⟩

/-- WINDOW n A written: Base, Kind and Safe policy are replaced (R5). -/
def Fields.writeA (f : Fields) (v : Word) : Fields :=
  { f with
    base := v.extractLsb' 0 22
    kind := if v.getLsbD 24 then .output else .input
    policy := Policy.ofCode (v.extractLsb' 25 2) }

/-- WINDOW n B written: Length, Image slice base and Safe slice base are replaced, and the Defined and Freeze state positions
are ignored (R5, R175). -/
def Fields.writeB (f : Fields) (v : Word) : Fields :=
  { f with length := v.extractLsb' 0 9, imageBase := v.extractLsb' 10 10, safeBase := v.extractLsb' 20 10 }

/-- The four-bit positions of PRIORITY LIST A and B as cause numbers (Table 11-9). -/
def nibbles (v : Word) (n : Nat) : List Nat := (List.range n).map fun k => (v.extractLsb' (4 * k) 4).toNat

/-- The list of causes with these numbers, if each of 0 to 9 stands in it once (R129). -/
def priorityOf (l : List Nat) : Option (List Cause) :=
  if l.length = 10 ∧ ∀ c ∈ allCauses, c.num ∈ l then some (l.filterMap Cause.ofNum) else none

/-- The prescale values (R157). -/
def isPrescale (v : Word) : Bool := decide (v.toNat ∈ [1, 2, 4, 8, 16, 32, 64, 128])

end Sys2Proof.Machine
end

