-- ==== Sys2Proof/Machine/Engine.lean ====
section
/-! DEFINITION. The release engine: batch records, the safe fill, the reissue, and what it does when a request of its own is
granted (06, 09). -/

namespace Sys2Proof.Machine

/-! ## The head record (R90 to R93) -/

/-- The first place at or after `off` of window `n` whose store word has an owed lane. -/
def findOwed (ws : Windows) (st : Store) (n : WinIdx) (off : Nat) : Option Nat :=
  ((List.range ws[n].words).drop off).find? fun k => decide ((st.marksAt (ws[n].imageAt k)).owed ≠ 0)

/-- Where the flush goes from place `off` of the first window of the set: words with no owed lane are passed over, and a window
with none left is removed from the set (R92). -/
def seekFlush (ws : Windows) (st : Store) : List WinIdx → Nat → List WinIdx × Option (WinIdx × Nat)
  | [], _ => ([], none)
  | n :: ns, off =>
    match findOwed ws st n off with
    | some k => (n :: ns, some (n, k))
    | none => seekFlush ws st ns 0

/-- The place the flush has reached in the first window of the set; a window it has not begun starts at its first word. -/
def flushStart (p : Option (WinIdx × Nat)) (set : List WinIdx) : Nat :=
  match p, set with
  | some (n, off), m :: _ => if n = m then off else 0
  | _, _ => 0

/-- The head record takes the first of the stages that applies; where none does, its retirement is due (R90, R94). -/
def settleHead (s : State) : State :=
  match s.release.queue with
  | [] => s
  | r :: rest =>
    if r.entries ≠ [] then s.setRelease { s.release with queue := { r with stage := .writing } :: rest }
    else
      match seekFlush s.win s.image r.flushSet (flushStart s.release.flushPos r.flushSet) with
      | (set, some p) =>
        s.setRelease { s.release with queue := { r with stage := .flushing, flushSet := set } :: rest, flushPos := some p }
      | (_, none) =>
        if s.marker.enabled then
          s.setRelease { s.release with queue := { r with stage := .marking, flushSet := [] } :: rest, flushPos := none }
        else s.setRelease { queue := { r with flushSet := [] } :: rest, flushPos := none, retireDue := true }

/-- The flush leaves the word it has reached (R92). -/
def flushOn (s : State) : State :=
  settleHead (s.setRelease { s.release with flushPos := s.release.flushPos.map fun p => (p.1, p.2 + 1) })

/-! ## The safe fill (R137 to R140) -/

/-- The windows the safe fill writes: OPEN OUTPUT windows whose policy is ZERO or PATTERN, in ascending index (R137). -/
def fillWindows (ws : Windows) : List WinIdx :=
  allWin.filter fun n => ws[n].isOutput && decide (ws[n].record.policy ≠ .hold) && decide (ws[n].freeze = .opened)

/-- Whether the safe fill has anything to write to this window (R140). -/
def isFilled (w : Window) : Bool := w.isOutput && decide (w.record.policy ≠ .hold)

/-- With the fill list empty the fill goes to its marker, or is complete where the marker is disabled (R139). -/
def Fill.toMarker (f : Fill) (markerEnabled : Bool) : Fill :=
  { f with offset := 0, phase := if markerEnabled then .marker else .due }

/-- The safe fill begins with a list formed anew (R137). -/
def beginFill (s : State) : State :=
  let f : Fill := { list := fillWindows s.win, offset := 0, active := true, phase := .words }
  s.setFill (if f.list = [] then f.toMarker s.marker.enabled else f)

/-- A fill write in flight belongs to a run of its window that has been given up (R140, R150). -/
def Owner.staleFill : Owner → Owner
  | .fillWord n _ => .fillWord n false
  | .safeMarker _ => .safeMarker false
  | o => o

/-- A thawed window is handed to the engine: it goes to the tail of the fill list, with all its words to be written (R140, R149). A
write in flight of the same window then belongs to its former run. -/
def handOver (n : WinIdx) (s : State) : State :=
  if isFilled s.win[n] then
    let atHead := s.fill.list.head? = some n
    let s := if atHead then s.setMp (s.mp.map fun p => { p with owner := match p.owner with
      | .fillWord m l => .fillWord m (l && decide (m ≠ n))
      | o => o }) else s
    let f := { s.fill with
      list := s.fill.list.filter (fun m => decide (m ≠ n)) ++ [n]
      offset := if atHead then 0 else s.fill.offset }
    s.setFill (if s.fill.active then f else { f with active := true, offset := 0, phase := .words })
  else s

/-! ## The reissue (R146 to R148) -/

/-- The first place at or after `off` of window `n` whose store word has a valid lane. -/
def findValid (ws : Windows) (st : Store) (n : WinIdx) (off : Nat) : Option Nat :=
  ((List.range ws[n].words).drop off).find? fun k => decide ((st.marksAt (ws[n].imageAt k)).valid ≠ 0)

/-- Where the reissue goes from place `off` of the first of these windows: undefined and INPUT windows are passed over, a FROZEN
window has owed set on its valid bytes, and an OPEN window is taken word by word, words with no
valid lane passed over (R146, R147). -/
def seekReissue (ws : Windows) : List WinIdx → Nat → Store → Store × Option (WinIdx × Nat)
  | [], _, st => (st, none)
  | n :: ns, off, st =>
    if !ws[n].isOutput then seekReissue ws ns 0 st
    else if ws[n].freeze.cutOff then seekReissue ws ns 0 (st.oweValid ws[n].record.inImage)
    else
      match findValid ws st n off with
      | some k => (st, some (n, k))
      | none => seekReissue ws ns 0 st

/-- The reissue goes on from a place; past the last window it goes to its marker, or its completion is due (R148). -/
def reissueFrom (n : WinIdx) (off : Nat) (s : State) : State :=
  match seekReissue s.win (allWin.filter fun m => decide (n ≤ m)) off s.image with
  | (st, some p) => (s.setImage st).setReissue { s.reissue with position := some p }
  | (st, none) =>
    (s.setImage st).setReissue { s.reissue with position := none, phase := if s.marker.enabled then .marker else .due }

/-- The reissue takes up its work where it stood (R149). -/
def reissueOn (s : State) : State :=
  match s.reissue.phase, s.reissue.position with
  | .words, some (n, off) => reissueFrom n off s
  | _, _ => s

/-- The reissue leaves the word at its position; it goes on at once unless thawed windows are to be filled first (R147, R149). -/
def reissuePast (s : State) : State :=
  let s := s.setReissue { s.reissue with position := s.reissue.position.map fun p => (p.1, p.2 + 1) }
  if s.fill.active then s else reissueOn s

/-- The fill leaves the word it has reached. A window's last word takes the window off the list; with the list empty the fill goes to
its marker, or, during a reissue, safe-filling is cleared and the reissue goes on (R138, R139, R149). -/
def fillOn (s : State) : State :=
  match s.fill.list with
  | [] => s
  | n :: rest =>
    if s.fill.offset + 1 < s.win[n].words then s.setFill { s.fill with offset := s.fill.offset + 1 }
    else if rest ≠ [] then s.setFill { s.fill with list := rest, offset := 0 }
    else if s.reissue.resuming then
      reissueOn (s.setFill { list := [], offset := 0, active := false, phase := .words })
    else s.setFill ({ s.fill with list := [] }.toMarker s.marker.enabled)

/-! ## Requests of the release engine (R97, R98) -/

/-- What the release engine is doing (Table 6-5). -/
inductive EngineWork where
  | atRest
  | draining
  | filling
  | reissuing
  deriving DecidableEq, Repr

/-- The engine's state, from the queue, safe-filling and resuming (Table 6-5); a fill goes before the reissue (R149). -/
def engineWork (s : State) : EngineWork :=
  if s.release.queue ≠ [] then .draining
  else if s.fill.active then .filling
  else if s.reissue.resuming then .reissuing
  else .atRest

/-- A phase that has a request waiting. -/
def WorkPhase.requests : WorkPhase → Bool
  | .words | .marker => true
  | .due => false

/-- The release engine has a request waiting at the arbiter, the port being free. -/
def releaseWaiting (s : State) : Bool :=
  match engineWork s with
  | .atRest => false
  | .draining => !s.release.retireDue
  | .filling => s.fill.phase.requests
  | .reissuing => s.reissue.phase.requests

/-- Begin a write of the release engine: the grant is the latest background grant (R97). -/
def beginRelease (a : Addr) (l : Lanes) (v : Word) (o : Owner) (s : State) : State :=
  (beginAccess ⟨a, true, l, v, o⟩ s).setBackground .release

/-- A draining engine's request is granted (R91 to R93, R98): it takes its next entry, flush word or marker as the record then
stands, or its request is withdrawn and it goes on. -/
def grantDrain (s : State) : State :=
  match s.release.queue with
  | [] => s
  | r :: _ =>
    match r.stage with
    | .queued => settleHead s
    | .writing =>
      match r.entries with
      | [] => settleHead s
      | e :: _ => if mayBegin s e.addr then beginRelease e.addr e.mask e.data (.entry e.window .queued) s else s
    | .flushing =>
      match s.release.flushPos with
      | none => settleHead s
      | some (n, off) =>
        let w := s.win[n].imageAt off
        let owed := (s.image.marksAt w).owed
        if n ∉ r.flushSet then settleHead s
        else if owed = 0 ∨ !mayBegin s (s.win[n].addrAt off) then flushOn s
        else beginRelease (s.win[n].addrAt off) owed (s.image.word w) (.flushWord n false) s
    | .marking =>
      if mayBegin s s.marker.addr then
        beginRelease s.marker.addr allLanes (markerWord r.cycle r.first r.torn r.flush false false) (.batchMarker true) s
      else s

/-- The data of a safe fill word: zero, or the word of the safe slice (R138). -/
def fillData (w : Window) (st : Store) (off : Nat) : Word :=
  if w.record.policy = .pattern then st.word (w.safeAt off) else 0

/-- A filling engine's request is granted (R138, R139, R141). -/
def grantFill (s : State) : State :=
  match s.fill.phase, s.fill.list with
  | .words, n :: _ =>
    let a := s.win[n].addrAt s.fill.offset
    if mayBegin s a then beginRelease a allLanes (fillData s.win[n] s.image s.fill.offset) (.fillWord n true) s
    else fillOn s
  | .marker, _ =>
    if mayBegin s s.marker.addr then
      beginRelease s.marker.addr allLanes (markerWord s.ctl.number false false false true false) (.safeMarker true) s
    else s
  | _, _ => s

/-- A reissuing engine's request is granted (R147, R148). -/
def grantReissue (s : State) : State :=
  match s.reissue.phase, s.reissue.position with
  | .words, some (n, off) =>
    let w := s.win[n].imageAt off
    let valid := (s.image.marksAt w).valid
    if valid = 0 ∨ !mayBegin s (s.win[n].addrAt off) then reissuePast s
    else beginRelease (s.win[n].addrAt off) valid (s.image.word w) (.reissueWord n true) s
  | .marker, _ =>
    if mayBegin s s.marker.addr then
      beginRelease s.marker.addr allLanes (markerWord s.ctl.number false false false false true) (.reissueMarker true) s
    else s
  | _, _ => s

/-- A request of the release engine is granted (R98). -/
def grantRelease (s : State) : State :=
  match engineWork s with
  | .atRest => s
  | .draining => grantDrain s
  | .filling => grantFill s
  | .reissuing => grantReissue s

end Sys2Proof.Machine
end

