-- ==== Sys2Proof/Machine/Frames.lean ====
section
/-! DEFINITION. The bits of the management link: the check byte, the fields of a request phase, the frame errors, and the reply as it is
held and clocked out (11.1, 11.2). -/

namespace Sys2Proof.Machine

/-- The check register takes one bit (R163). -/
def crcBit (r : Byte) (b : Bool) : Byte := if r.msb = b then r <<< 1 else (r <<< 1) ^^^ 0x07#8

/-- The check register takes a byte, most significant bit first (R162, R163). -/
def crcByte (r v : Byte) : Byte := [7, 6, 5, 4, 3, 2, 1, 0].foldl (fun r k => crcBit r (v.getLsbD k)) r

/-- The check byte of these bytes in the order they are sent (R163). -/
def checkByte (l : List Byte) : Byte := l.foldl crcByte 0

end Sys2Proof.Machine

namespace Sys2Proof

/-- The check byte that bytes 0 to 5 of a request call for (R163). -/
def RequestBytes.expected (b : RequestBytes) : Byte :=
  Machine.checkByte [b.header, b.number, b.data3, b.data2, b.data1, b.data0]

/-- The identity field of a header: bits 7:5 (Table 11-5). -/
def RequestBytes.target (b : RequestBytes) : BitVec 3 := b.header.extractLsb' 5 3

/-- The operation code of a header: bits 4:3 (Table 11-5). -/
def RequestBytes.operation (b : RequestBytes) : BitVec 2 := b.header.extractLsb' 3 2

/-- The data or argument of a request: byte 2 carries bits 31:24 (Table 11-5). -/
def RequestBytes.value (b : RequestBytes) : Word := Machine.ofLanes b.data3 b.data2 b.data1 b.data0

/-- A frame error that the request phase itself shows: a check mismatch or operation code 11 (R164). -/
def RequestBytes.inError (b : RequestBytes) : Bool := decide (b.check ≠ b.expected) || decide (b.operation = 3)

/-- The header addresses every bridge (R162). -/
def RequestBytes.isBroadcast (b : RequestBytes) : Bool := decide (b.target = 7)

/-- The header addresses this bridge alone; identity 7 is never addressed so (R162). -/
def RequestBytes.isOurs (b : RequestBytes) (identity : BitVec 3) : Bool :=
  decide (identity ≠ 7) && decide (b.target = identity)

end Sys2Proof

namespace Sys2Proof.Machine

/-- A unicast frame may end at 56 or at 104 edges only (R164). -/
def unicastLength (edges : Nat) : Bool := decide (edges = 56) || decide (edges = 104)

/-- The bridge is receiving frames: RESET is not asserted, and the frame on the link is not one a reset has abandoned (R162). -/
def receiving (s : State) : Bool := !s.lines.resetHeld && decide (s.mg.frame ≠ .abandoned)

/-- A unicast frame can be addressed to the bridge (R162). -/
def addressed (s : State) : Bool := receiving s && decide (s.identity ≠ 7)

/-- A request is taken where a unicast frame can be addressed to the bridge, and is no business of the bridge otherwise (R162). -/
def request (body : State → State) (s : State) : State := if addressed s then body s else s

/-- The reply is formed and held for the reply phase (R166). -/
def answer (st : Status) (d : Word) (s : State) : State := s.setMg { s.mg with frame := .taken, reply := some ⟨st, d⟩ }

/-- Answered ACK with no data. -/
def ackReply (s : State) : State := answer .ack 0 s

/-- Refused with a reason (Table 11-2). -/
def refuse (r : Reason) (s : State) : State := answer .refused (fieldAt r.code 0) s

/-- A write or command is answered BUSY with COLLISION while a command is in flight (R166 step 4, R170), and is otherwise given to its
own rule. -/
def unlessBusy (body : State → State) (s : State) : State :=
  if s.mg.command.isSome then answer .busy 0 (s.setMg { s.mg with collision := true }) else body s

/-- A unicast write or command other than RESET, free of frame errors. -/
def guarded (body : State → State) (s : State) : State := request (unlessBusy body) s

/-- The tests of a write of item `number` that the lock refuses and whose value may be bad for reason `r`. Where both hold and the
item's rule gives the two tests no order, `Config.lockTestFirst` says which reason is given (log 5). -/
def lockedWrite (number : Byte) (bad : Bool) (r : Reason) (good : State → State) (s : State) : State :=
  if s.mg.locked then
    (if bad then (if Config.lockTestFirst number then refuse .locked s else refuse r s) else refuse .locked s)
  else if bad then refuse r s
  else good s

/-- A command in flight is taken (R169). -/
def takeInFlight (c : InFlight) (s : State) : State :=
  s.setMg { s.mg with command := some c, done := false, lastResult := ⟨.pending, c.code, c.argument⟩ }

/-- The command in flight completes with a result (R169). -/
def complete (r : Reason) (s : State) : State :=
  s.setMg { s.mg with command := none, done := true, lastResult := { s.mg.lastResult with result := r } }

/-- The six bytes of a reply phase (Table 11-6). -/
def Reply.bytes (r : Reply) : List Byte :=
  let l := [r.status.code, lane 3 r.data, lane 2 r.data, lane 1 r.data, lane 0 r.data]
  l ++ [checkByte l]

/-- What the bridge drives on MG-OUT after edge 56 + k of the frame on the link: bit k of the reply, most significant bit of each byte
first; released (none) at all other times (R167). -/
def mgOut (s : State) (k : Nat) : Option Bool :=
  match s.mg.reply with
  | some r =>
    if s.mg.frame = .taken ∨ s.mg.frame = .errored then
      (r.bytes[k / 8]?).map fun b => b.getLsbD (7 - k % 8)
    else none
  | none => none

end Sys2Proof.Machine
end

