-- ==== Sys2Proof/Machine/SafeState.lean ====
section
/-! DEFINITION. SAFE entry, the abandoning of a reissue, and the latching of a cause, which may bring about either (02, 08, 09). Every
cause of the bridge latches through `latch`. -/

namespace Sys2Proof.Machine

/-- Waits that end when the access is routed anew: no Memory Port access on its behalf has begun (R15). -/
def Wait.movable : Wait → Bool
  | .service _ | .poolStall | .markStall | .endingStall => true
  | .held | .begun | .shared | .afterDiscard => false

/-! ## SAFE entry (R31, Table 9-1) -/

/-- An outstanding access with no Memory Port access begun is routed anew under SAFE (R15). A discarded input write latches INPUT WRITE
unless it did so before; the mode being SAFE, its action is not taken (R128). -/
def rerouteSafe (s : State) : State :=
  match s.cp with
  | .outstanding o =>
    if o.wait.movable then
      let t := treatmentOf s o.cls o.access
      let s' := carryOut t o s
      if t = .discard true ∧ !o.effectTaken then s'.setCauses (s'.causes.setFlag .inputWrite) else s'
    else s
  | _ => s

/-- A release write in flight at SAFE entry: its record, if it had one, is gone (R55, R102). -/
def Owner.dropRecord : Owner → Owner
  | .entry n .queued => .entry n .dropped
  | .batchMarker _ => .batchMarker false
  | o => o

/-- A write in flight of a fill or a reissue that is given up (R150). -/
def Owner.staleWork : Owner → Owner
  | .fillWord n _ => .fillWord n false
  | .safeMarker _ => .safeMarker false
  | .reissueWord n _ => .reissueWord n false
  | .reissueMarker _ => .reissueMarker false
  | o => o

/-- Change the owner of the access in flight. -/
def mapOwner (f : Owner → Owner) (s : State) : State := s.setMp (s.mp.map fun p => { p with owner := f p.owner })

/-- The stage-low flag and timer after the free count has risen: with the condition false a flag that follows it is clear, and a
timer stands at 0 (R122, R123). -/
def relaxStageLow (s : State) : State :=
  if stageLowCondition s then s
  else
    let u := s.causes.setLevel .stageLow { s.causes.stageLow with timer := 0 }
    s.setCauses (if u.stageLow.time = 0 then u.clearFlag .stageLow else u)

/-- The cycle controller at SAFE entry: mode SAFE, stop-pending, FIRST and TORN clear, number kept, timing stopped (R31, R154). -/
def safeControl (s : State) : State :=
  (s.setCtl { s.ctl with mode := .safe, stopPending := false, first := false, torn := false }).setTiming s.timing.halt

/-- The staging pool and the release queue at SAFE entry: every entry and every record is dropped (R55, R102). -/
def dropQueue (s : State) : State :=
  mapOwner Owner.dropRecord ((s.setPool { s.pool with openStage := [] }).setRelease ⟨[], none, false⟩)

/-- Freeze control at SAFE entry (R114). -/
def safeFreeze (s : State) : State :=
  setWindows (settlePending s.win) (s.setFreeze { s.freeze with firstFlush := [] })

/-- SAFE entry, block by block (Table 9-1). -/
def enterSafe (s : State) : State :=
  relaxStageLow (rerouteSafe (beginFill (safeFreeze (walkAbandon (dropQueue (safeControl s))))))

/-! ## The abandoning of a reissue (R150) -/

/-- The reissue is abandoned: resuming is clear, the command in flight ends with ABANDONED and the safe fill begins anew. -/
def abandonReissue (s : State) : State :=
  beginFill (complete .abandoned
    ((mapOwner Owner.staleWork s).setReissue { s.reissue with resuming := false, position := none }))

/-! ## Latching (R121, R128) -/

/-- A cause latches. A flag that was set already changes nothing. A flag that goes from clear to set, of a cause whose action is SAFE, brings
the bridge to SAFE from ARMED, RUN or ENDING, and abandons a reissue. -/
def latch (c : Cause) (s : State) : State :=
  if s.causes.flag c then s
  else
    let s' := s.setCauses (s.causes.setFlag c)
    if s.causes.actionSafe c then
      match s.ctl.mode with
      | .armed | .run | .ending => enterSafe s'
      | .safe => if s.reissue.resuming then abandonReissue s' else s'
      | .idle => s'
    else s'

/-- A level cause follows its live condition after something may have changed it: at qualifying time 0 the flag follows, and above 0
the timer stands at 0 while the condition is false (R122, R123). -/
def followLevel (c : LevelCause) (s : State) : State :=
  let l := s.causes.level c
  if l.time = 0 then (if condition s c then latch c.cause s else s.setCauses (s.causes.clearFlag c.cause))
  else if condition s c then s
  else s.setCauses (s.causes.setLevel c { l with timer := 0 })

end Sys2Proof.Machine
end

