-- ==== Sys2Proof/Machine/Pool.lean ====
section
/-! DEFINITION. The staging pool: a staged write by the four cases of Table 3-2 (03). -/

namespace Sys2Proof.Machine

/-- A write coalesces into an entry (R39). -/
def Entry.coalesce (e : Entry) (l : Lanes) (v : Word) : Entry :=
  { e with data := mergeLanes l v e.data, mask := e.mask ||| l }

/-- A new entry; the data lanes outside the mask hold zero (R35). -/
def Entry.ofAccess (n : WinIdx) (a : Access) : Entry := ⟨a.addr, n, mergeLanes a.enables a.data 0, a.enables⟩

/-- The open stage with another list. -/
def setOpenStage (l : List Entry) (s : State) : State := s.setPool { s.pool with openStage := l }

/-- TORN of the scan in progress is set (R43). -/
def markTorn (s : State) : State := s.setCtl { s.ctl with torn := true }

/-- A torn write (R43 to R46). To a frozen window it goes into the image with owed and ends; otherwise it waits for the Memory Port.
`grantFirst`: the port is found free and granted before the SAFE entry that TORN may bring (R46, log 6). -/
def tornWrite (grantFirst : Bool) (n : WinIdx) (o : Outstanding) (s : State) : State :=
  let a := o.access
  let s := markTorn s
  if (s.win[n]).freeze.cutOff then
    latch .torn (endAccess true 0 (writeImage n a.addr a.enables a.data (Marks.owe a.enables) s))
  else
    let s := waitFor (.service .torn) o.took s
    latch .torn (if grantFirst && portFree s then grantController s else s)

/-- A staged write (R38 to R41): it coalesces, takes a free entry, stalls for one, or is torn. -/
def stageWrite (grantFirst : Bool) (n : WinIdx) (o : Outstanding) (s : State) : State :=
  let a := o.access
  match findEntry s.pool.openStage a.addr with
  | some _ =>
    endAccess true 0 (setOpenStage (s.pool.openStage.map fun e =>
      if e.addr = a.addr then e.coalesce a.enables a.data else e) s)
  | none =>
    if 0 < freeCount s then endAccess true 0 (setOpenStage (s.pool.openStage ++ [Entry.ofAccess n a]) s)
    else if 0 < queuedCount s then waitFor .poolStall o s
    else tornWrite grantFirst n o s

end Sys2Proof.Machine
end

