-- ==== Sys2Proof/Machine/Boundary.lean ====
section
/-! DEFINITION. The first mark and the boundary, with everything that comes about inside them: commit, purge, batch record, freeze settling,
period sample and walk (2.3, 2.4, 2.5, 3.6, 3.7, 7.3). -/

namespace Sys2Proof.Machine

/-- Change the marks of the image word an entry writes. -/
def markEntry (ws : Windows) (e : Entry) (f : Marks → Marks) (st : Store) : Store :=
  match imageWord ws .output e.window e.addr with
  | some w => st.mark w f
  | none => st

/-- An entry of the open stage is written into the image; its marks follow the freeze state at the mark (R49, R50). -/
def commitEntry (ws : Windows) (st : Store) (e : Entry) : Store :=
  match imageWord ws .output e.window e.addr with
  | some w =>
    (st.writeLanes w e.mask e.data).mark w
      (if (ws[e.window]).freeze.freezing then Marks.owe e.mask else Marks.settle e.mask)
  | none => st

/-- The commit of the open stage, in list order (R49). -/
def commitStage (ws : Windows) (l : List Entry) (st : Store) : Store := l.foldl (commitEntry ws) st

/-- An entry whose window is freezing at the mark (R50, R52). -/
def Entry.freezing (ws : Windows) (e : Entry) : Bool := (ws[e.window]).freeze.freezing

/-- The purge of one older record: entries and flush windows of freezing windows leave it, and FLUSH is cleared if that
empties its flush set (R52, R53). -/
def BatchRecord.purge (ws : Windows) (r : BatchRecord) : BatchRecord :=
  let set := r.flushSet.filter fun n => !(ws[n]).freeze.freezing
  { r with
    entries := r.entries.filter fun e => !e.freezing ws
    flushSet := set
    flush := r.flush && !(decide (set = []) && decide (r.flushSet ≠ [])) }

/-- The owed marks the purge sets on the bytes of the entries it removes from the queue (R52). -/
def purgeMarks (ws : Windows) (q : List BatchRecord) (st : Store) : Store :=
  ((q.flatMap (·.entries)).filter fun e => e.freezing ws).foldl (fun st e => markEntry ws e (Marks.oweBack e.mask) st) st

/-- The purge reaches a release write in flight: its end will free its entry and leave owed as the purge has set it (R53). -/
def Owner.purge (ws : Windows) : Owner → Owner
  | .entry n .queued => if (ws[n]).freeze.freezing then .entry n .purged else .entry n .queued
  | .flushWord n w => .flushWord n (w || (ws[n]).freeze.freezing)
  | o => o

/-- The owed marks of the bytes of such a write (R53, R61). -/
def purgeFlight (ws : Windows) (mp : Option PortAccess) (st : Store) : Store :=
  match mp with
  | some p =>
    match p.owner with
    | .entry n .queued => if (ws[n]).freeze.freezing then markEntry ws ⟨p.addr, n, p.data, p.enables⟩ (Marks.oweBack p.enables) st else st
    | .flushWord n _ => if (ws[n]).freeze.freezing then markEntry ws ⟨p.addr, n, p.data, p.enables⟩ (Marks.oweBack p.enables) st else st
    | _ => st
  | none => st

/-- The record formed at a boundary (R51). -/
def newRecord (s : State) : BatchRecord :=
  let set := boundaryFlushSet s.win s.freeze.firstFlush
  { cycle := s.ctl.number
    entries := s.pool.openStage.filter fun e => !e.freezing s.win
    flushSet := set
    first := s.ctl.first
    torn := s.ctl.torn
    flush := decide (set ≠ [])
    stage := .queued }

/-- The image after the commit and the purge (R49, R50, R52, R53). -/
def boundaryImage (s : State) : Store :=
  purgeFlight s.win s.mp (purgeMarks s.win s.release.queue (commitStage s.win s.pool.openStage s.image))

/-- The staging pool and the release queue at a boundary: commit, purge, and the new record at the tail (R49 to R53). -/
def boundaryPool (s : State) : State :=
  mapOwner (Owner.purge s.win)
    ((setOpenStage [] (s.setImage (boundaryImage s))).setRelease
      { s.release with queue := s.release.queue.map (BatchRecord.purge s.win) ++ [newRecord s] })

/-- Freeze control at a boundary: the first-flush set is handed over and the pending states settle (R112). -/
def boundaryFreeze (s : State) : State :=
  setWindows (settlePending s.win) (s.setFreeze { s.freeze with firstFlush := [] })

/-- The cycle controller at a boundary: the number advances, the flags clear, the period is sampled; at the stopping boundary the mode is
ENDING and timing stops (R22, R28, R154, R155). -/
def boundaryControl (s : State) : State :=
  let stop := s.ctl.stopPending
  (s.setCtl { mode := if stop then .ending else .run, number := nextCycle s.ctl.number, stopPending := false,
              first := false, torn := false }).setTiming
    (if stop then s.timing.sample.haltAtZero else s.timing.sample.restart)

/-- The sampler at a boundary: a new walk, or at the stopping boundary none (R75, R80). -/
def boundaryWalk (stop : Bool) (atMark : Windows) (s : State) : State :=
  if stop then walkStop s else walkBegin atMark s

/-- An entry write is in flight whose entry a purge has taken out of its record (R53). -/
def purgedInFlight (mp : Option PortAccess) : Bool :=
  match mp with
  | some { owner := .entry _ .purged, .. } => true
  | _ => false

/-- A boundary (R22, R28). A record appended to an empty queue becomes the head when the boundary is complete (R90). A head whose entry
write in flight has been purged goes on without waiting for that write's end, which then only frees the entry (R91, R94). -/
def boundary (s : State) : State :=
  let t := boundaryWalk s.ctl.stopPending s.win (boundaryControl (boundaryFreeze (boundaryPool s)))
  if s.release.queue = [] ∨ purgedInFlight t.mp = true then settleHead t else t

/-- The first mark (R21). -/
def firstMark (s : State) : State :=
  walkBegin s.win
    ((s.setCtl { s.ctl with mode := .run, number := nextCycle s.ctl.number, first := true, torn := false }).setTiming
      s.timing.restart)

end Sys2Proof.Machine
end

