-- ==== Sys2Proof/Machine/Routing.lean ====
section
/-! DEFINITION. A controller access given its treatment in full, with the effects on the cycle controller, the pool and the causes, and
routed anew when the mode or its window's freeze state changes (R12, R15). -/

namespace Sys2Proof.Machine

/-- The sampler is walking. -/
def isWalking (s : State) : Bool := decide (s.sampler.state = .walking)

/-- A mark write in RUN: with four records it stalls and latches OVERRUN on its arrival; otherwise the boundary is taken, the write goes
on as a pass, and OVERRUN latches if a record was outstanding or the walk unfinished (R22, R24, R79, R95). -/
def markInRun (o : Outstanding) (s : State) : State :=
  if Config.queueLimit ≤ s.release.queue.length then latch .overrun (waitFor .markStall o s)
  else
    let t := waitFor (.service .pass) o.took (boundary s)
    if s.release.queue ≠ [] ∨ isWalking s then latch .overrun t else t

/-- The boundary of a stalled mark. The sampler's test for OVERRUN is made here; the release queue's was made on its arrival (R79, R95). -/
def stalledBoundary (o : Outstanding) (s : State) : State :=
  let t := waitFor (.service .pass) o.took (boundary s)
  if isWalking s then latch .overrun t else t

/-- The treatment of an access by its class, in full. `o` says what the access waited for and which effects it has had, where it is routed
anew; a write already stalled for pool space or waiting as a torn write-through stays so under a staged treatment (R42, R44). -/
def route (grantFirst : Bool) (o : Outstanding) (s : State) : State :=
  match treatmentOf s o.cls o.access with
  | .firstMark => waitFor (.service .pass) o.took (if o.effectTaken then s else firstMark s)
  | .boundary => if o.effectTaken then waitFor (.service .pass) o s else markInRun o s
  | .passNoted =>
    if o.effectTaken then waitFor (.service .pass) o s
    else
      let t := waitFor (.service .pass) o.took s
      latch .inputWrite (if grantFirst && portFree t then grantController t else t)
  | .discard true =>
    if o.effectTaken then endAccess true 0 s else latch .inputWrite (endAccess true 0 s)
  | .staged n =>
    if o.wait = .poolStall ∨ o.wait = .service .torn then s else stageWrite grantFirst n o s
  | t => carryOut t o s

/-- The freeze state an access is routed by: that of its window, OPEN where it has none. -/
def freezeOf (ws : Windows) : AccessClass → Freeze
  | .input n | .output n => (ws[n]).freeze
  | .plain | .mark => .opened

/-- What an access of a class is routed by has changed: the mode, or the freeze state of its window (R15). -/
def routedBy (before s : State) (c : AccessClass) : Bool :=
  decide (before.ctl.mode ≠ s.ctl.mode) || decide (freezeOf before.win c ≠ freezeOf s.win c)

/-- The outstanding access is routed anew where no Memory Port access on its behalf has begun and what it is routed by has changed
since `before` (R15). -/
def reroute (before s : State) : State :=
  match s.cp with
  | .outstanding o => if o.wait.movable && routedBy before s o.cls then route false o s else s
  | _ => s

end Sys2Proof.Machine
end

