-- ==== Sys2Proof/Machine/MemoryPort.lean ====
section
/-! DEFINITION. The Memory Port: the grant order, and what each requester does at the end of its access (R2, R97 to R100). -/

namespace Sys2Proof.Machine

/-- The block does nothing while the RESET input is asserted (R4). -/
def unlessReset (f : State → State) (s : State) : State := if s.lines.resetHeld then s else f s

/-- Owed is cleared on lanes of the image word for an address, at the end of a write of them (R61). -/
def clearOwedAt (n : WinIdx) (a : Addr) (l : Lanes) (s : State) : State :=
  match imageWord s.win .output n a with
  | some w => s.setImage (s.image.mark w (Marks.clearOwed l))
  | none => s

/-- The first entry of the head record is freed (R91). -/
def freeHeadEntry (s : State) : State :=
  match s.release.queue with
  | r :: rest => s.setRelease { s.release with queue := { r with entries := r.entries.tail } :: rest }
  | [] => s

/-- A controller read that shares the sampler read that has ended (R82). -/
def endShared (ok : Bool) (data : Word) (s : State) : State :=
  match s.cp with
  | .outstanding { wait := .shared, .. } => endAccess ok data s
  | _ => s

/-- A controller access whose Memory Port access a RESET command has discarded is passed anew, as the mode now routes it (R174). -/
def passAnew (s : State) : State :=
  match s.cp with
  | .outstanding o =>
    if o.wait = .afterDiscard then route false { o with wait := .service .pass, effectTaken := false } s else s
  | _ => s

/-- The requester's own effects of the end of its access, with the end of the controller access (Table 6-4, R99, R100). -/
def ownerEnd (p : PortAccess) (ok : Bool) (data : Word) (s : State) : State :=
  match p.owner with
  | .pass => endAccess ok (if p.write then 0 else data) s
  | .passImage n | .torn n => endAccess ok 0 (writeImage n p.addr p.enables p.data (Marks.settle p.enables) s)
  | .merged gathered missing => endAccess ok (mergeLanes missing data gathered) s
  | .fetch n => endAccess ok data (if ok then storeSample n p.addr data true s else s)
  | .entry n .queued => freeHeadEntry (clearOwedAt n p.addr p.enables s)
  | .entry _ .purged => s
  | .entry n .dropped => clearOwedAt n p.addr p.enables s
  | .flushWord n withdrawn => if withdrawn then s else clearOwedAt n p.addr p.enables s
  | .fillWord n _ => clearOwedAt n p.addr allLanes s
  | .reissueWord n _ => clearOwedAt n p.addr p.enables s
  | .batchMarker _ | .safeMarker _ | .reissueMarker _ => s
  | .walkRead n stale => endShared ok data (if ok then storeSample n p.addr data (!stale) s else s)
  | .discarded => passAnew s

/-- The requester goes on, where the work its access belonged to still stands (R90 to R93, R77, R138, R147). -/
def goOn (o : Owner) (s : State) : State :=
  match o with
  | .entry _ _ => settleHead s
  | .flushWord _ withdrawn => if withdrawn then settleHead s else flushOn s
  | .batchMarker live =>
    if live && decide (s.release.queue ≠ []) then s.setRelease { s.release with retireDue := true } else s
  | .fillWord _ live => if live then fillOn s else s
  | .safeMarker live => if live then s.setFill { s.fill with phase := .due } else s
  | .reissueWord _ live => if live then reissuePast s else s
  | .reissueMarker live => if live then s.setReissue { s.reissue with phase := .due } else s
  | .walkRead _ stale => if stale then s else walkOn s
  | _ => s

/-- The access in flight has ended. MEMORY latches at a failure, after the effects of the end and before the requester goes on; a SAFE entry
or an abandoned reissue leaves it nothing to go on with (log 8). -/
def accessEnded (ok : Bool) (data : Word) (s : State) : State :=
  match s.mp with
  | none => s
  | some p =>
    let s1 := ownerEnd p ok data (s.setMp none)
    let s2 := if ok then s1 else latch .memory s1
    let s3 :=
      if s2.ctl.mode = s1.ctl.mode ∧ s2.reissue.resuming = s1.reissue.resuming then goOn p.owner s2 else s2
    followLevel .stageLow s3

/-- The grant order (R97): controller service first, then the background requester that did not have the previous background grant. -/
def grantPort (s : State) : State :=
  if !portFree s then s
  else if controllerWaiting s then grantController s
  else if releaseWaiting s && (decide (samplerRequest s ≠ .waiting) || decide (s.background = .sampler)) then grantRelease s
  else if samplerRequest s = .waiting then grantSampler s
  else s

/-- MEMORY_PORT_GRANT (R97): with the lines at these levels, the arbiter grants one waiting request if the port is free; the request begins
its access or is withdrawn (R98). -/
def execMemoryPortGrant (lines : PortLines) (s : State) : Host.Outcome State Fault Refusal :=
  .next (unlessReset (fun s => grantPort (samplePort lines s)) s)

/-- MEMORY_PORT_ACCESS_END (R99): with either line asserted the access in flight ends, by success with MP-ACK alone. A response that
belongs to no access is ignored (R2). -/
def execMemoryPortAccessEnd (lines : PortLines) (data : Word) (s : State) : Host.Outcome State Fault Refusal :=
  .next (unlessReset (fun s =>
    if lines.ack || lines.fail then accessEnded (lines.ack && !lines.fail) data (samplePort lines s)
    else samplePort lines s) s)

/-- MEMORY_PORT_TIMEOUT (R2): the access in flight has failed. -/
def execMemoryPortTimeout (s : State) : Host.Outcome State Fault Refusal :=
  .next (unlessReset (fun s => accessEnded false 0 s) s)

end Sys2Proof.Machine
end

