-- ==== Sys2Proof/Machine/Completions.lean ====
section
/-! DEFINITION. Work of the bridge that comes to its end: a record retires, a safe fill, a reissue, a COMMIT WINDOW or a DROP WINDOW
completes (1.3, 6.1, 9.2, 9.5). -/

namespace Sys2Proof.Machine

/-! ## Retirement (R94, R30) -/

/-- The head record leaves the queue; the next becomes the head. The last retirement in ENDING makes the mode IDLE. -/
def retire (s : State) : State :=
  let rest := s.release.queue.tail
  let s := s.setRelease ⟨rest, none, false⟩
  if rest = [] then (if s.ctl.mode = .ending then s.setCtl { s.ctl with mode := .idle } else s)
  else settleHead s

/-- A stalled mark is released where fewer than four records are outstanding: its boundary is taken (R24). -/
def releaseMark (o : Outstanding) (s : State) : State :=
  if s.release.queue.length < Config.queueLimit then followLevel .stageLow (stalledBoundary o s) else s

/-- The event that waits on the retirement just taken, `before` being the state before it: a mark stalled in RUN has its boundary, and with
the mode now IDLE an access that waits is routed anew, the stalled output write among them (R24, R30, R94). -/
def afterRetirement (before s : State) : State :=
  match s.cp with
  | .outstanding o => if o.wait = .markStall ∧ s.ctl.mode = .run then releaseMark o s else reroute before s
  | _ => s

/-- The head's work has ended and it stands in the queue still (log 19). -/
def retirementDue (s : State) : Bool := s.release.retireDue && decide (s.release.queue ≠ [])

/-- A retirement with what waits on it, so that nothing, SAFE entry least of all, can be taken between the two (R94, R24, R30). -/
def retireWhole (s : State) : State := afterRetirement s (retire s)

/-- RETIREMENT (R94): the head's work has ended, and it retires with what waits on it (log 28). -/
def execRetirement (s : State) : Host.Outcome State Fault Refusal :=
  .next (if retirementDue s then retireWhole s else s)

/-! ## Safe fill (R139) -/

/-- SAFE_FILL_COMPLETE (R139): safe-filling is cleared, unless a thaw has placed a window in the list, which is then begun. -/
def execSafeFillComplete (s : State) : Host.Outcome State Fault Refusal :=
  .next (if s.fill.active ∧ s.fill.phase = .due then
      (if s.fill.list = [] then s.setFill ⟨[], 0, false, .words⟩
       else s.setFill { s.fill with offset := 0, phase := .words })
    else s)

/-! ## Reissue (R148) -/

/-- The entry to ARMED by a resumption: OPEN OUTPUT windows with owed bytes join the first-flush set, FIRST and TORN are cleared,
timing restarts (R32, R145, R148). -/
def enterArmed (s : State) : State :=
  ((s.setFreeze { s.freeze with firstFlush := joinWin s.freeze.firstFlush (owedOpenOutputs s.win s.image) }).setCtl
    { s.ctl with mode := .armed, first := false, torn := false }).setTiming s.timing.restart

/-- REISSUE_COMPLETE (R148): the mode becomes ARMED and the command in flight ends with OK. It waits for windows thawed by an expiry
to be filled (R149, log 10). -/
def execReissueComplete (s : State) : Host.Outcome State Fault Refusal :=
  .next (if s.reissue.resuming ∧ s.reissue.phase = .due ∧ !s.fill.active then
      reroute s (complete .ok (enterArmed (s.setReissue { s.reissue with resuming := false, position := none })))
    else s)

/-! ## COMMIT WINDOW and DROP WINDOW (R7 to R9) -/

/-- Two ranges of so many words share a word. -/
def sharesWord (a b : Nat × Nat) : Bool := decide (a.1 < b.1 + b.2) && decide (b.1 < a.1 + a.2)

/-- The range of addresses of these fields. -/
def Fields.range (f : Fields) : Nat × Nat := (f.base.toNat, f.length.toNat)

/-- The image slice. -/
def Fields.imageSlice (f : Fields) : Nat × Nat := (f.imageBase.toNat, f.length.toNat)

/-- The safe slice. -/
def Fields.safeSlice (f : Fields) : Nat × Nat := (f.safeBase.toNat, f.length.toNat)

/-- The slices of a window (1.2). -/
def Fields.slices (f : Fields) : List (Nat × Nat) := if f.hasSafe then [f.imageSlice, f.safeSlice] else [f.imageSlice]

/-- A slice ends at or below store word 1023. -/
def sliceFits (a : Nat × Nat) : Bool := decide (a.1 + a.2 ≤ Config.storeSize)

/-- The records of the other defined windows. -/
def otherRecords (ws : Windows) (n : WinIdx) : List Fields :=
  (allWin.filter fun m => decide (m ≠ n) && (ws[m]).defined).map fun m => (ws[m]).record

/-- Check 1 of Table 1-2. -/
def rangeOk (f : Fields) : Bool :=
  decide (1 ≤ f.length.toNat) && decide (f.length.toNat ≤ 256) && decide (f.stop ≤ Config.addressSpace)

/-- Check 2 of Table 1-2. -/
def overlapOk (f : Fields) (others : List Fields) : Bool := others.all fun g => !sharesWord f.range g.range

/-- Check 3 of Table 1-2. -/
def markOk (f : Fields) (mark marker : BusMark) : Bool := !f.covers mark.addr && !(marker.enabled && f.covers marker.addr)

/-- Check 4 of Table 1-2. -/
def slicesOk (f : Fields) (others : List Fields) : Bool :=
  f.slices.all sliceFits && !(f.hasSafe && sharesWord f.imageSlice f.safeSlice) &&
    others.all fun g => f.slices.all fun a => g.slices.all fun b => !sharesWord a b

/-- The result of the checks of COMMIT WINDOW n, in the order of Table 1-2. -/
def commitCheck (s : State) (n : WinIdx) : Reason :=
  let f := (s.win[n]).descriptor
  let others := otherRecords s.win n
  if !rangeOk f then .range
  else if !overlapOk f others then .overlap
  else if !markOk f s.mark s.marker then .mark
  else if !slicesOk f others then .slice
  else .ok

/-- Replace one window. -/
def putWindow (n : WinIdx) (w : Window) (s : State) : State := s.setWin (s.win.set n w)

/-- The record is installed; the marks of the former image slice of a defined window, and of the new one, are cleared (R8). -/
def installWindow (n : WinIdx) (s : State) : State :=
  let w := s.win[n]
  (putWindow n { w with record := w.descriptor, defined := true, freeze := .opened } s).setImage
    (s.image.clearMarks fun k => (w.defined && w.record.inImage k) || w.descriptor.inImage k)

/-- COMMIT_WINDOW_COMPLETE (R7, R8): the record is installed, or the descriptor is reloaded from it; the result stands in LAST RESULT. -/
def execCommitWindowComplete (s : State) : Host.Outcome State Fault Refusal :=
  .next (match s.mg.command with
    | some (.commitWindow n) =>
      if commitCheck s n = .ok then complete .ok (installWindow n s)
      else complete (commitCheck s n) (putWindow n { s.win[n] with descriptor := (s.win[n]).record } s)
    | _ => s)

/-- A defined window is undefined and the marks of its image slice are cleared (R9). -/
def dropDefined (n : WinIdx) (s : State) : State :=
  let w := s.win[n]
  if w.defined then
    (putWindow n { w with defined := false, freeze := .opened } s).setImage (s.image.clearMarks w.record.inImage)
  else s

/-- DROP_WINDOW_COMPLETE (R9). -/
def execDropWindowComplete (s : State) : Host.Outcome State Fault Refusal :=
  .next (match s.mg.command with
    | some (.dropWindow n) => complete .ok (dropDefined n s)
    | _ => s)

end Sys2Proof.Machine
end

