-- ==== Sys2Proof/Machine/Controller.lean ====
section
/-! DEFINITION. The commands of the Controller Port: an access taken, its end, and the ends of the three stalls (R1, R12, R14, R24, R41). -/

namespace Sys2Proof.Machine

/-- An idle Controller Port takes the access. -/
def takeAccess (grantFirst : Bool) (a : Access) (s : State) : State :=
  match s.cp with
  | .idle =>
    if s.lines.resetHeld then s.setCp (.outstanding ⟨a, .plain, .held, false⟩)
    else followLevel .stageLow (route grantFirst ⟨a, classify s a, .held, false⟩ s)
  | _ => s

/-- CONTROLLER_ACCESS (R12): the access is classified and given its treatment; while RESET is asserted it is held (R4). -/
def execControllerAccess (access : Access) (grantFirst : Bool) (s : State) : Host.Outcome State Fault Refusal :=
  .next (takeAccess grantFirst access s)

/-- CP_REQ_NEGATED (R1): the bridge negates CP-ACK or CP-FAIL and can take the next access. -/
def execCpReqNegated (s : State) : Host.Outcome State Fault Refusal :=
  .next (match s.cp with
    | .ended _ _ _ => s.setCp .idle
    | _ => s)

/-- A stalled write is sorted afresh once an entry is free (R41). -/
def endPoolStall (o : Outstanding) (s : State) : State :=
  match treatmentOf s o.cls o.access with
  | .staged n =>
    if o.wait = .poolStall ∧ 0 < freeCount s then followLevel .stageLow (stageWrite false n o s)
    else s
  | _ => s

/-- POOL_STALL_END (R41): an entry has been freed, and the stalled write takes it. -/
def execPoolStallEnd (s : State) : Host.Outcome State Fault Refusal :=
  .next (match s.cp with
    | .outstanding o => endPoolStall o s
    | _ => s)

/-- MARK_STALL_END (R24): the oldest record retires with everything that waits on it, the stalled mark's boundary among it; a mark that
finds fewer than four records has its boundary taken as it is. -/
def endMarkStall (o : Outstanding) (s : State) : State :=
  if o.wait = .markStall then
    (if retirementDue s then retireWhole s else if s.ctl.mode = .run then releaseMark o s else s)
  else s

/-- MARK_STALL_END (R24). -/
def execMarkStallEnd (s : State) : Host.Outcome State Fault Refusal :=
  .next (match s.cp with
    | .outstanding o => endMarkStall o s
    | _ => s)

/-- ENDING_STALL_END (R14, R30): the last record retires and the mode is IDLE; the stalled write is routed anew. One that finds the mode
ENDING no longer is routed as it is. -/
def endEndingStall (o : Outstanding) (s : State) : State :=
  if o.wait = .endingStall then
    (if s.ctl.mode ≠ .ending then route false o s
     else if retirementDue s ∧ s.release.queue.tail = [] then retireWhole s
     else s)
  else s

/-- ENDING_STALL_END (R14, R30). -/
def execEndingStallEnd (s : State) : Host.Outcome State Fault Refusal :=
  .next (match s.cp with
    | .outstanding o => endEndingStall o s
    | _ => s)

end Sys2Proof.Machine
end

