-- ==== Sys2Proof/Machine/Timers.lean ====
section
/-! DEFINITION. The clocks of the bridge, in the units the manual counts them in, and what falls due on them: period counter, watchdog,
freeze timer and qualifying timers (7.5, 8.2, 10). -/

namespace Sys2Proof.Machine

/-! ## Period counter and watchdog -/

/-- PERIOD_COUNTER_ADVANCE (R153): a further 10 µs have passed. -/
def execPeriodCounterAdvance (s : State) : Host.Outcome State Fault Refusal :=
  .next (unlessReset (fun s => s.setTiming s.timing.advance) s)

/-- WATCHDOG_EXPIRY (R160): the count of the running watchdog has reached its limit. It is EXPIRED and WDOG latches. -/
def execWatchdogExpiry (s : State) : Host.Outcome State Fault Refusal :=
  .next (unlessReset (fun s =>
    if s.timing.wdReached then latch .wdog (s.setTiming { s.timing with wdState := .expired }) else s) s)

/-! ## Freeze timer -/

/-- FREEZE_TIMER_COUNT_DOWN (R117): a further unit of the start range has passed. -/
def execFreezeTimerCountDown (s : State) : Host.Outcome State Fault Refusal :=
  .next (unlessReset (fun s =>
    if s.freeze.running ∧ s.freeze.remaining ≠ 0 then
      s.setFreeze { s.freeze with remaining := s.freeze.remaining - 1 }
    else s) s)

/-- The windows that are FROZEN. -/
def frozenNow (ws : Windows) : List WinIdx := allWin.filter fun n => decide ((ws[n]).freeze = .frozen)

/-- THAW applied to a set of FROZEN windows under the rule of the mode (R118): in ARMED they join the first-flush set, in SAFE they are
handed to the release engine in ascending index; the timer follows the frozen set and an access is routed anew. -/
def thawAll (l : List WinIdx) (s : State) : State :=
  let ws := mapWin (fun n w => if n ∈ l then { w with freeze := thawTo s.ctl.mode w.freeze } else w) s.win
  let t := setWindows ws s
  reroute s (match s.ctl.mode with
    | .armed => t.setFreeze { t.freeze with firstFlush := joinWin t.freeze.firstFlush l }
    | .safe => l.foldl (fun t n => handOver n t) t
    | _ => t)

/-- The expiry of the freeze timer (R118). `safeFirst`: a SAFE request of FREEZE EXPIRED is taken before the thaws (log 7). The windows
thawed are those FROZEN at the expiry. -/
def freezeExpiry (safeFirst : Bool) (s : State) : State :=
  let l := frozenNow s.win
  let s := s.setFreeze { s.freeze with running := false }
  if safeFirst then thawAll l (latch .freezeExpired s) else latch .freezeExpired (thawAll l s)

/-- FREEZE_TIMER_EXPIRY (R118): the remaining count of the running timer is 0. -/
def execFreezeTimerExpiry (safeFirst : Bool) (s : State) : Host.Outcome State Fault Refusal :=
  .next (unlessReset (fun s =>
    if s.freeze.running ∧ s.freeze.remaining = 0 then freezeExpiry safeFirst s else s) s)

/-! ## Qualifying timers -/

/-- A level cause is qualifying: its time is above 0, its condition true and its flag clear (R122). -/
def qualifying (c : LevelCause) (s : State) : Bool :=
  decide ((s.causes.level c).time ≠ 0) && condition s c && !s.causes.flag c.cause

/-- QUALIFYING_TIMER_ADVANCE (R122): so many REFCLK periods have passed while the cause was qualifying; the elapsed time goes no further than
the qualifying time. -/
def execQualifyingTimerAdvance (c : LevelCause) (periods : Nat) (s : State) : Host.Outcome State Fault Refusal :=
  .next (unlessReset (fun s =>
    if qualifying c s then
      let l := s.causes.level c
      s.setCauses (s.causes.setLevel c { l with timer := min (l.timer + periods) l.limit })
    else s) s)

/-- QUALIFYING_TIME_REACHED (R122): the elapsed time has reached the qualifying time while the flag is clear, and the cause latches. -/
def execQualifyingTimeReached (c : LevelCause) (s : State) : Host.Outcome State Fault Refusal :=
  .next (unlessReset (fun s =>
    if qualifying c s ∧ (s.causes.level c).limit ≤ (s.causes.level c).timer then latch c.cause s else s) s)

end Sys2Proof.Machine
end

