-- ==== Sys2Proof/Machine/Commands.lean ====
section
/-! DEFINITION. The commands of the management link, RESET apart (Table 11-3). Each is a unicast frame addressed to the bridge and free of
frame errors, at its 56th edge; SAFE may also be a broadcast. -/

namespace Sys2Proof.Machine

/-! ## START, STOP, RESUME, SAFE -/

/-- Some window is defined. -/
def someDefined (ws : Windows) : Bool := allWin.any fun n => (ws[n]).defined

/-- Every window is OPEN. -/
def allOpen (ws : Windows) : Bool := allWin.all fun n => decide ((ws[n]).freeze = .opened)

/-- The effects of START (R19): number 0, flags and stop-pending clear, marks of every image slice clear, timing restarted, ARMED. -/
def startRun (s : State) : State :=
  ((s.setCtl ⟨.armed, 0, false, false, false⟩).setImage (s.image.clearMarks (inSomeImage s.win))).setTiming s.timing.restart

/-- The tests of START in their order, and START taken (R18). -/
def takeStart (s : State) : State :=
  if s.ctl.mode ≠ .idle then refuse .mode s
  else if !someDefined s.win then refuse .argument s
  else if s.timing.wdPeriod = 0 then refuse .range s
  else if !s.mark.enabled then refuse .mark s
  else ackReply (reroute s (startRun s))

/-- START (R18, R19). -/
def execStart (_argument : Word) (s : State) : Host.Outcome State Fault Refusal := .next (guarded takeStart s)

/-- STOP in ARMED, taken: IDLE at once, timing stops, the first-flush set is emptied (R26, R110). -/
def stopArmed (s : State) : State :=
  ((s.setCtl { s.ctl with mode := .idle }).setTiming s.timing.halt).setFreeze { s.freeze with firstFlush := [] }

/-- STOP in SAFE, taken: IDLE at once (R151). -/
def stopSafe (s : State) : State := s.setCtl { s.ctl with mode := .idle }

/-- STOP by mode (R26, R151). -/
def takeStop (s : State) : State :=
  match s.ctl.mode with
  | .idle | .ending => ackReply s
  | .run =>
    if s.ctl.stopPending then ackReply s
    else if !allOpen s.win then refuse .mode s
    else ackReply (s.setCtl { s.ctl with stopPending := true })
  | .armed => if !allOpen s.win then refuse .mode s else ackReply (reroute s (stopArmed s))
  | .safe =>
    if s.fill.active then answer .busy 0 s
    else if frozenNow s.win ≠ [] then refuse .mode s
    else ackReply (reroute s (stopSafe s))

/-- STOP (R26, R151). -/
def execStop (_argument : Word) (s : State) : Host.Outcome State Fault Refusal := .next (guarded takeStop s)

/-- A reissue begins at the first window (R146). -/
def beginReissue (s : State) : State :=
  reissueFrom 0 0 (takeInFlight .reissue (s.setReissue { s.reissue with resuming := true, phase := .words }))

/-- The tests of RESUME in their order, and RESUME taken under the policy in force (R144 to R146). -/
def takeResume (s : State) : State :=
  if s.ctl.mode ≠ .safe then refuse .mode s
  else if s.fill.active then answer .busy 0 s
  else if someSafeFlag s.causes then refuse .mode s
  else if s.lines.fltIn then refuse .mode s
  else
    match s.reissue.policy with
    | .fresh => ackReply (reroute s (enterArmed s))
    | .reissue => answer .accepted 0 (beginReissue s)

/-- RESUME (R144). -/
def execResume (_argument : Word) (s : State) : Host.Outcome State Fault Refusal := .next (guarded takeResume s)

/-- SAFE by mode (R31, R152). -/
def takeSafe (s : State) : State :=
  match s.ctl.mode with
  | .idle => refuse .mode s
  | .safe => ackReply s
  | .armed | .run | .ending => ackReply (enterSafe s)

/-- A broadcast SAFE: by the same mode rules, a refusal being silent, and no reply (R165). -/
def safeBroadcast (s : State) : State :=
  let t := s.setMg { s.mg with frame := .none, reply := none }
  match s.ctl.mode with
  | .idle | .safe => t
  | .armed | .run | .ending => enterSafe t

/-- SAFE (R31, R152, R165). -/
def execSafe (via : Via) (_argument : Word) (s : State) : Host.Outcome State Fault Refusal :=
  .next (match via with
    | .unicast => guarded takeSafe s
    | .broadcast => if receiving s then safeBroadcast s else s)

/-! ## FREEZE and THAW (R107 to R111) -/

/-- The tests that FREEZE n and THAW n share, in their order (R107). -/
def freezeTests (v : Word) (good : WinIdx → State → State) (s : State) : State :=
  match windowArg v with
  | none => refuse .argument s
  | some n =>
    if s.ctl.mode = .idle ∨ s.ctl.mode = .ending then refuse .mode s
    else if s.ctl.stopPending then refuse .mode s
    else if !(s.win[n]).defined then refuse .argument s
    else good n s

/-- The effect of FREEZE n (R108, R110, R111): the freeze state, the timer, and in ARMED the first-flush set. -/
def freezeWindow (n : WinIdx) (s : State) : State :=
  let t := setWindows (setFreezeState s.win n (freezeTo s.ctl.mode (s.win[n]).freeze)) s
  if s.ctl.mode = .armed ∧ (s.win[n]).freeze = .opened then
    t.setFreeze { t.freeze with firstFlush := t.freeze.firstFlush.filter fun m => decide (m ≠ n) }
  else t

/-- FREEZE n by its tests (R107, R108). -/
def takeFreeze (argument : Word) : State → State :=
  freezeTests argument fun n s =>
    if s.freeze.setting = 0 then refuse .range s else ackReply (reroute s (freezeWindow n s))

/-- FREEZE n (R107, R108, R110, R111, R141). -/
def execFreeze (argument : Word) (s : State) : Host.Outcome State Fault Refusal :=
  .next (guarded (takeFreeze argument) s)

/-- The effect of THAW n (R109, R110, R111, R140): the freeze state, the timer, and with a FROZEN window the first-flush set in ARMED and
the fill list in SAFE. -/
def thawWindow (n : WinIdx) (s : State) : State :=
  let t := setWindows (setFreezeState s.win n (thawTo s.ctl.mode (s.win[n]).freeze)) s
  if (s.win[n]).freeze = .frozen then
    match s.ctl.mode with
    | .armed => t.setFreeze { t.freeze with firstFlush := joinWin t.freeze.firstFlush [n] }
    | .safe => handOver n t
    | _ => t
  else t

/-- THAW n by its tests (R107, R109). -/
def takeThaw (argument : Word) : State → State :=
  freezeTests argument fun n s => ackReply (reroute s (thawWindow n s))

/-- THAW n (R107, R109, R110, R111, R140). -/
def execThaw (argument : Word) (s : State) : Host.Outcome State Fault Refusal := .next (guarded (takeThaw argument) s)

/-! ## COMMIT WINDOW, DROP WINDOW, UNLOCK, CLEAR LONGEST -/

/-- The tests that COMMIT WINDOW n and DROP WINDOW n share, in their order; taken, the command is in flight (R6, R9). -/
def takeWindowCommand (v : Word) (c : WinIdx → InFlight) (s : State) : State :=
  match windowArg v with
  | none => refuse .argument s
  | some n =>
    if s.ctl.mode ≠ .idle then refuse .mode s
    else if s.mg.locked then refuse .locked s
    else answer .accepted 0 (takeInFlight (c n) s)

/-- COMMIT WINDOW n (R6). -/
def execCommitWindow (argument : Word) (s : State) : Host.Outcome State Fault Refusal :=
  .next (guarded (takeWindowCommand argument .commitWindow) s)

/-- DROP WINDOW n (R9). -/
def execDropWindow (argument : Word) (s : State) : Host.Outcome State Fault Refusal :=
  .next (guarded (takeWindowCommand argument .dropWindow) s)

/-- UNLOCK by the lock (R172). -/
def takeUnlock (v : Word) (s : State) : State :=
  if s.mg.locked then
    (if v = s.mg.lockCode then ackReply (s.setMg { s.mg with locked := false, lockCode := 0 }) else refuse .locked s)
  else ackReply s

/-- UNLOCK (R172). -/
def execUnlock (argument : Word) (s : State) : Host.Outcome State Fault Refusal := .next (guarded (takeUnlock argument) s)

/-- CLEAR LONGEST in every mode, locked or not (R156). -/
def takeClearLongest (s : State) : State := ackReply (s.setTiming { s.timing with longest := 0 })

/-- CLEAR LONGEST (R156). -/
def execClearLongest (_argument : Word) (s : State) : Host.Outcome State Fault Refusal := .next (guarded takeClearLongest s)

end Sys2Proof.Machine
end

