-- ==== Sys2Proof/Machine/Items.lean ====
section
/-! DEFINITION. Writes and reads of the items (Table 11-4). A write is a unicast frame addressed to the bridge and free of frame errors, at
its 56th edge, made with no command in flight; its rule's tests stand in the rule's order. -/

namespace Sys2Proof.Machine

/-! ## The writes by their own rules -/

/-- CAUSES: every cause whose position is 1 is cleared (R125, R126). -/
def putCauses (v : Word) (s : State) : State := ackReply (s.setCauses (s.causes.hostWrite v))

/-- WINDOW n A or WINDOW n B: the descriptor's fields of that item (R5). -/
def putDescriptor (n : WinIdx) (part : DescPart) (v : Word) (s : State) : State :=
  if s.mg.locked then refuse .locked s
  else
    let w := s.win[n]
    let d := match part with
      | .a => w.descriptor.writeA v
      | .b => w.descriptor.writeB v
    ackReply (putWindow n { w with descriptor := d } s)

/-- MARK ADDRESS (R10). -/
def putMark (v : Word) (s : State) : State :=
  if s.ctl.mode ≠ .idle then refuse .mode s
  else if s.mg.locked then refuse .locked s
  else if (findWin s.win (BusMark.ofWord v).addr).isSome then refuse .mark s
  else ackReply (s.setMark (BusMark.ofWord v))

/-- MARKER ADDRESS (R10). -/
def putMarker (v : Word) (s : State) : State :=
  if s.ctl.mode ≠ .idle then refuse .mode s
  else if s.mg.locked then refuse .locked s
  else if (BusMark.ofWord v).enabled ∧ (findWin s.win (BusMark.ofWord v).addr).isSome then refuse .mark s
  else ackReply (s.setMarker (BusMark.ofWord v))

/-- WATCHDOG PERIOD (R159). -/
def putWatchdog (v : Word) : State → State :=
  lockedWrite 0x20 (decide (v = 0) || decide (65535 < v.toNat)) .range fun s =>
    ackReply (s.setTiming { s.timing with wdPeriod := v.setWidth 16 })

/-- PRESCALE, which the lock does not protect (R157). -/
def putPrescale (v : Word) (s : State) : State :=
  if isPrescale v then ackReply (s.setTiming { s.timing with prescale := v.setWidth 8, prescaleCount := 0 })
  else refuse .range s

/-- STAGE LOW THRESHOLD, with its effect on the condition at once (R48). -/
def putThreshold (v : Word) : State → State :=
  lockedWrite 0x29 (decide (255 < v.toNat)) .range fun s =>
    ackReply (followLevel .stageLow (s.setPool { s.pool with threshold := v.setWidth 8 }))

/-- FREEZE TIMER: setting and range (R116). -/
def putFreezeTimer (v : Word) (s : State) : State :=
  if s.mg.locked then refuse .locked s
  else ackReply (s.setFreeze { s.freeze with
    setting := v.extractLsb' 0 8, range := if v.getLsbD 8 then .minutes else .seconds })

/-- The item number of a qualifying time. -/
def qualifyNumber : LevelCause → Byte
  | .chain => 0x0F
  | .stageLow => 0x10

/-- A taken write of a qualifying time (R124). The same value changes nothing; 0 makes the flag follow the condition; a time above 0
latches at once a clear flag whose timer has counted as much, and otherwise lets the timer run on. -/
def qualifyTaken (c : LevelCause) (time : BitVec 8) (s : State) : State :=
  let l := s.causes.level c
  if time = l.time then s
  else if time = 0 then followLevel c (s.setCauses (s.causes.setLevel c ⟨0, 0⟩))
  else
    let limit := (Level.mk time 0).limit
    let t := s.setCauses (s.causes.setLevel c ⟨time, min l.timer limit⟩)
    if l.time ≠ 0 ∧ qualifying c s ∧ limit ≤ l.timer then latch c.cause t else t

/-- QUALIFY CHAIN or QUALIFY STAGE LOW (R124). -/
def putQualify (c : LevelCause) (v : Word) : State → State :=
  lockedWrite (qualifyNumber c) (decide (255 < v.toNat)) .range fun s => ackReply (qualifyTaken c (v.setWidth 8) s)

/-- ACTIONS: refused whole where LINK or POWER-ON is set to SAFE (R127). -/
def putActions (v : Word) : State → State :=
  lockedWrite 0x0B (v.getLsbD 8 || v.getLsbD 9) .argument fun s =>
    ackReply (s.setCauses { s.causes with actions := v.extractLsb' 0 10 })

/-- PRIORITY LIST A: held as the pending first part (R129). -/
def putPriorityA (v : Word) (s : State) : State :=
  if s.mg.locked then refuse .locked s else ackReply (s.setCauses { s.causes with pendingFirst := some v })

/-- The list a write of PRIORITY LIST B forms: from the pending first part, or from the list in effect where none is pending (R129). -/
def priorityFrom (u : CauseUnit) (v : Word) : Option (List Cause) :=
  priorityOf (nibbles (u.pendingFirst.getD (layoutPriorityA u.priority)) 8 ++ nibbles v 2)

/-- PRIORITY LIST B: a permutation is put into effect, anything else is refused with ARGUMENT; the pending first part is discarded in both
cases, and kept where the refusal is LOCKED (R129, log 18). -/
def putPriorityB (v : Word) (s : State) : State :=
  let u := { s.causes with pendingFirst := none }
  match priorityFrom s.causes v with
  | some l => lockedWrite 0x0D false .argument (fun s => ackReply (s.setCauses { u with priority := l })) s
  | none =>
    if s.mg.locked ∧ Config.lockTestFirst 0x0D then refuse .locked s else refuse .argument (s.setCauses u)

/-- QUIET MARK (R130). -/
def putQuietMark (v : Word) : State → State :=
  lockedWrite 0x0E (decide (10 < v.toNat)) .range fun s =>
    ackReply (s.setCauses { s.causes with quietMark := Fin.ofNat 11 v.toNat })

/-- FORCE, which the lock does not protect (R133). -/
def putForce (v : Word) (s : State) : State :=
  ackReply (s.setCauses { s.causes with forceFault := v.getLsbD 0, forceAlert := v.getLsbD 1 })

/-- RESUME POLICY (R143). -/
def putPolicy (v : Word) : State → State :=
  lockedWrite 0x38 (decide (1 < v.toNat)) .argument fun s =>
    ackReply (s.setReissue { s.reissue with policy := if v = 0 then .fresh else .reissue })

/-- LOCK (R171). -/
def putLock (v : Word) (s : State) : State :=
  if s.mg.locked then refuse .locked s
  else if v = 0 then refuse .argument s
  else ackReply (s.setMg { s.mg with locked := true, lockCode := v })

/-- IMAGE POINTER, which the lock does not protect (R69). -/
def putPointer (v : Word) (s : State) : State :=
  if 1023 < v.toNat then refuse .range s else ackReply (s.setPointer (v.setWidth 10))

/-- IMAGE DATA: all four lanes of the word at the pointer, which then moves on (R71). -/
def putImageData (v : Word) (s : State) : State :=
  if s.ctl.mode ≠ .idle then refuse .mode s
  else if s.mg.locked then refuse .locked s
  else ackReply ((s.setImage (s.image.writeLanes s.pointer.toNat allLanes v)).setPointer (s.pointer + 1))

/-! ## The commands of the writes -/

/-- CAUSES_WRITE (R125). -/
def execCausesWrite (v : Word) (s : State) : Host.Outcome State Fault Refusal := .next (guarded (putCauses v) s)

/-- WINDOW_DESCRIPTOR_WRITE (R5). -/
def execWindowDescriptorWrite (n : WinIdx) (part : DescPart) (v : Word) (s : State) : Host.Outcome State Fault Refusal :=
  .next (guarded (putDescriptor n part v) s)

/-- MARK_ADDRESS_WRITE (R10). -/
def execMarkAddressWrite (v : Word) (s : State) : Host.Outcome State Fault Refusal := .next (guarded (putMark v) s)

/-- MARKER_ADDRESS_WRITE (R10). -/
def execMarkerAddressWrite (v : Word) (s : State) : Host.Outcome State Fault Refusal := .next (guarded (putMarker v) s)

/-- WATCHDOG_PERIOD_WRITE (R159). -/
def execWatchdogPeriodWrite (v : Word) (s : State) : Host.Outcome State Fault Refusal := .next (guarded (putWatchdog v) s)

/-- PRESCALE_WRITE (R157). -/
def execPrescaleWrite (v : Word) (s : State) : Host.Outcome State Fault Refusal := .next (guarded (putPrescale v) s)

/-- STAGE_LOW_THRESHOLD_WRITE (R48). -/
def execStageLowThresholdWrite (v : Word) (s : State) : Host.Outcome State Fault Refusal :=
  .next (guarded (putThreshold v) s)

/-- FREEZE_TIMER_WRITE (R116). -/
def execFreezeTimerWrite (v : Word) (s : State) : Host.Outcome State Fault Refusal := .next (guarded (putFreezeTimer v) s)

/-- QUALIFY_WRITE (R124). -/
def execQualifyWrite (c : LevelCause) (v : Word) (s : State) : Host.Outcome State Fault Refusal :=
  .next (guarded (putQualify c v) s)

/-- ACTIONS_WRITE (R127). -/
def execActionsWrite (v : Word) (s : State) : Host.Outcome State Fault Refusal := .next (guarded (putActions v) s)

/-- PRIORITY_LIST_A_WRITE (R129). -/
def execPriorityListAWrite (v : Word) (s : State) : Host.Outcome State Fault Refusal := .next (guarded (putPriorityA v) s)

/-- PRIORITY_LIST_B_WRITE (R129). -/
def execPriorityListBWrite (v : Word) (s : State) : Host.Outcome State Fault Refusal := .next (guarded (putPriorityB v) s)

/-- QUIET_MARK_WRITE (R130). -/
def execQuietMarkWrite (v : Word) (s : State) : Host.Outcome State Fault Refusal := .next (guarded (putQuietMark v) s)

/-- FORCE_WRITE (R133). -/
def execForceWrite (v : Word) (s : State) : Host.Outcome State Fault Refusal := .next (guarded (putForce v) s)

/-- RESUME_POLICY_WRITE (R143). -/
def execResumePolicyWrite (v : Word) (s : State) : Host.Outcome State Fault Refusal := .next (guarded (putPolicy v) s)

/-- LOCK_WRITE (R171). -/
def execLockWrite (v : Word) (s : State) : Host.Outcome State Fault Refusal := .next (guarded (putLock v) s)

/-- IMAGE_POINTER_WRITE (R69). -/
def execImagePointerWrite (v : Word) (s : State) : Host.Outcome State Fault Refusal := .next (guarded (putPointer v) s)

/-- IMAGE_DATA_WRITE (R71). -/
def execImageDataWrite (v : Word) (s : State) : Host.Outcome State Fault Refusal := .next (guarded (putImageData v) s)

/-- A write of a defined item by its own rule; a read-only item is refused with ARGUMENT (R166 steps 5 and 6). -/
def putItem (it : Item) (v : Word) : State → State :=
  match it with
  | .causes => putCauses v
  | .actions => putActions v
  | .priorityA => putPriorityA v
  | .priorityB => putPriorityB v
  | .quietMark => putQuietMark v
  | .qualify c => putQualify c v
  | .force => putForce v
  | .markAddress => putMark v
  | .markerAddress => putMarker v
  | .watchdogPeriod => putWatchdog v
  | .prescale => putPrescale v
  | .stageLowThreshold => putThreshold v
  | .freezeTimer => putFreezeTimer v
  | .resumePolicy => putPolicy v
  | .lock => putLock v
  | .imagePointer => putPointer v
  | .imageData => putImageData v
  | .window n part => putDescriptor n part v
  | .ident | .state | .lastResult | .conditions | .leadCause | .cycleNumber | .lastPeriod | .longestPeriod | .capture
  | .poolLevels | .frozenSet | .imageMarks => refuse .argument

/-- A WRITE ITEM by the general steps (R166): an undefined number is UNKNOWN before a command in flight makes it BUSY. -/
def takeWrite (number : Byte) (v : Word) (s : State) : State :=
  match Item.ofNumber number with
  | none => answer .unknown 0 s
  | some it => unlessBusy (putItem it v) s

/-- WRITE_ITEM (R166). -/
def execWriteItem (number : Byte) (v : Word) (s : State) : Host.Outcome State Fault Refusal :=
  .next (request (takeWrite number v) s)

/-! ## Reads -/

/-- What a read changes: STATE, CAPTURE and IMAGE DATA alone change anything (R168). -/
def readEffect (it : Item) (s : State) : State :=
  match it with
  | .state => s.setMg { s.mg with done := false, collision := false }
  | .capture => s.setTiming { s.timing with captured := false, captureOverrun := false }
  | .imageData => s.setPointer (s.pointer + 1)
  | _ => s

/-- A READ ITEM is served in every mode, locked or unlocked, and while a command is in flight; the reply carries the value before the
change (R166 step 2, R168). -/
def takeRead (it : Item) (s : State) : State := answer .ack (itemValue s it) (readEffect it s)

/-- STATE_READ (R170). -/
def execStateRead (s : State) : Host.Outcome State Fault Refusal := .next (request (takeRead .state) s)

/-- CAPTURE_READ (R158). -/
def execCaptureRead (s : State) : Host.Outcome State Fault Refusal := .next (request (takeRead .capture) s)

/-- IMAGE_DATA_READ (R70). -/
def execImageDataRead (s : State) : Host.Outcome State Fault Refusal := .next (request (takeRead .imageData) s)

end Sys2Proof.Machine
end

