-- ==== Sys2Proof/Machine/Lines.lean ====
section
/-! DEFINITION. Power-on, the RESET input, the chain lines, and the RESET command (R4, R17, R132, R135, R173, R174). -/

namespace Sys2Proof.Machine

/-- The controller access across power-on or an assertion of RESET: nothing is answered, and an access not yet answered is held (R4). An
access already answered loses CP-ACK or CP-FAIL and waits for CP-REQ to be negated (log 16). -/
def holdCp : CpState → CpState
  | .idle => .idle
  | .outstanding o => .outstanding ⟨o.access, .plain, .held, false⟩
  | .ended _ _ _ => .ended false false 0

/-- A held access is taken afresh, with every window undefined and the mark disabled, and passes as in IDLE (R4, R11). -/
def takeHeld : CpState → CpState
  | .outstanding o => .outstanding (if o.wait = .held then ⟨o.access, .plain, .service .pass, false⟩ else o)
  | c => c

/-- A frame on the link at a reset is abandoned: the bridge waits for MG-SEL to be negated (R162). -/
def abandonFrame (sel : Bool) : FramePhase := if sel then .abandoned else .none

/-- Every block in its reset state, keeping what is not the bridge's to reset: the queue of commands, the lines and the
Controller Port as given. -/
def blocksFrom (s : State) (lines : Lines) (cp : CpState) : State :=
  ((State.blocksReset.setPending s.pending).setLines lines).setCp cp

/-- POWER-ON latches (R135); it is an event cause whose action is CONTINUE. -/
def latchPowerOn (s : State) : State := s.setCauses (s.causes.setFlag .powerOn)

/-- POWER_ON (R17): every block is in its reset state, and power-on ends with these levels on the lines. While RESET is asserted as well, the
Controller Port stays held and POWER-ON waits for its negation (log 17). -/
def execPowerOn (pins : PowerPins) (s : State) : Host.Outcome State Fault Refusal :=
  let lines : Lines := { s.lines with fltIn := pins.fltIn, alrIn := pins.alrIn }
  let t := (blocksFrom s lines (holdCp s.cp)).setIdentity pins.straps
  .next (if s.lines.resetHeld then t
    else latchPowerOn ((t.setMg { t.mg with frame := abandonFrame pins.sel }).setCp (takeHeld t.cp)))

/-- RESET_INPUT_ASSERTED (R4): every block is in its reset state and stays there; the access in flight is abandoned and the Controller Port
held. The strapped identity is sampled at the negation. -/
def execResetInputAsserted (s : State) : Host.Outcome State Fault Refusal :=
  .next ((blocksFrom s { s.lines with resetHeld := true } (holdCp s.cp)).setIdentity s.identity)

/-- RESET_INPUT_NEGATED (R4, R135): the straps are sampled, POWER-ON latches, and a held access passes as in IDLE. -/
def execResetInputNegated (straps : BitVec 3) (sel : Bool) (s : State) : Host.Outcome State Fault Refusal :=
  .next (if s.lines.resetHeld then
      let t := (s.setLines { s.lines with resetHeld := false }).setIdentity straps
      latchPowerOn ((t.setMg { t.mg with frame := abandonFrame sel }).setCp (takeHeld t.cp))
    else s)

/-- FLT_IN_CHANGE (R132): the line takes the level, which passes down at once, and CHAIN follows its condition. -/
def execFltInChange (level : Bool) (s : State) : Host.Outcome State Fault Refusal :=
  .next (unlessReset (followLevel .chain) (s.setLines { s.lines with fltIn := level }))

/-- ALR_IN_CHANGE (R132): the line takes the level, which passes down at once. -/
def execAlrInChange (level : Bool) (s : State) : Host.Outcome State Fault Refusal :=
  .next (s.setLines { s.lines with alrIn := level })

/-! ## The RESET command -/

/-- The controller access across the RESET command (R174): one not on the Memory Port passes as in IDLE; one whose access is in flight,
or shares a sampler read, waits for that to end and then passes. Each keeps its class (R11). An access already answered stays so. -/
def resetCp : CpState → CpState
  | .outstanding o =>
    .outstanding { o with
      effectTaken := false
      wait := match o.wait with
        | .begun | .shared | .afterDiscard => .afterDiscard
        | .held | .service _ | .poolStall | .markStall | .endingStall => .service .pass }
  | c => c

/-- A taken RESET (R173, R174): every block in its reset state without POWER-ON, the straps sampled, and the access in flight completing
with its end discarded. -/
def resetTaken (straps : BitVec 3) (s : State) : State :=
  ((blocksFrom s s.lines (resetCp s.cp)).setIdentity straps).setMp
    (s.mp.map fun p => { p with owner := .discarded })

/-- A RESET that a broadcast carries (R165): any argument but 0x96 is refused in silence. -/
def resetBroadcast (argument : Word) (straps : BitVec 3) (s : State) : State :=
  if argument = Config.resetArgument then resetTaken straps s
  else s.setMg { s.mg with frame := .none, reply := none }

/-- A RESET that a unicast carries (R173), taken also while a command is in flight and while locked; its own frame goes on to its reply. -/
def takeReset (argument : Word) (straps : BitVec 3) (s : State) : State :=
  if argument = Config.resetArgument then ackReply (resetTaken straps s) else refuse .argument s

/-- RESET (R173). -/
def execReset (via : Via) (argument : Word) (straps : BitVec 3) (s : State) : Host.Outcome State Fault Refusal :=
  .next (match via with
    | .unicast => request (takeReset argument straps) s
    | .broadcast => if receiving s then resetBroadcast argument straps s else s)

end Sys2Proof.Machine
end

