-- ==== Sys2Proof/Machine/LinkFrames.lean ====
section
/-! DEFINITION. Frames as such: a frame error at the 56th edge, the end of a frame with its broadcasts, and a request by the general steps
(11.1, 11.2). -/

namespace Sys2Proof.Machine

/-- The port waits for the next frame. -/
def closeFrame (s : State) : State := s.setMg { s.mg with frame := .none, reply := none }

/-- The frame on the link is in error: it is not acted on, and its reply phase carries this reply, if any (R164). -/
def errorFrame (r : Option Reply) (s : State) : State := latch .link (s.setMg { s.mg with frame := .errored, reply := r })

/-- FRAME_ERROR (R164): a check mismatch or operation code 11, found at the 56th edge of a frame for the bridge. LINK latches; a unicast
frame is answered CHECK with zero data, a broadcast is not answered (log 12). -/
def execFrameError (b : RequestBytes) (s : State) : Host.Outcome State Fault Refusal :=
  .next (if receiving s ∧ b.inError then
      (if b.isBroadcast then errorFrame none s
       else if b.isOurs s.identity then errorFrame (some ⟨.check, 0⟩) s
       else s)
    else s)

/-- A good broadcast is acted on at the negation of MG-SEL (R165): SAFE, and RESET with its argument; anything else latches LINK. -/
def actOnBroadcast (b : RequestBytes) (straps : BitVec 3) (s : State) : State :=
  if b.operation = 2 ∧ b.number = 0x04 then safeBroadcast s
  else if b.operation = 2 ∧ b.number = 0x0A then resetBroadcast b.value straps s
  else closeFrame (latch .link s)

/-- A broadcast ends (R164, R165): with a wrong length or a frame error it is discarded whole and LINK latches. -/
def endBroadcast (f : Frame) (straps : BitVec 3) (s : State) : State :=
  if f.edges ≠ 56 ∨ f.bytes.inError then closeFrame (latch .link s) else actOnBroadcast f.bytes straps s

/-- A unicast frame for the bridge ends whose 56th edge no command has told of: it is wrong in its length or its bytes, or it has
nothing to leave behind (R164). -/
def endUntaken (f : Frame) (s : State) : State :=
  if unicastLength f.edges ∧ !f.bytes.inError then closeFrame s else closeFrame (latch .link s)

/-- FRAME_END (R164): MG-SEL is negated. An abandoned frame, one for another bridge and one without a whole header leave nothing; a taken
frame of wrong length latches LINK; a frame found in error has latched it already. -/
def endFrame (f : Frame) (straps : BitVec 3) (s : State) : State :=
  match s.mg.frame with
  | .abandoned | .errored => closeFrame s
  | .taken => if unicastLength f.edges then closeFrame s else closeFrame (latch .link s)
  | .none =>
    if f.edges < 8 then closeFrame s
    else if f.bytes.isBroadcast then endBroadcast f straps s
    else if f.bytes.isOurs s.identity then endUntaken f s
    else closeFrame s

/-- FRAME_END (R164). -/
def execFrameEnd (f : Frame) (straps : BitVec 3) (s : State) : Host.Outcome State Fault Refusal :=
  .next (unlessReset (endFrame f straps) s)

/-- A defined command by its own rule, with its argument and the straps a RESET samples. A command in flight makes every other BUSY
(R166 steps 4 and 6, Table 11-3). -/
def giveCommand (c : Command) (argument : Word) (straps : BitVec 3) : State → State :=
  match c with
  | .start => unlessBusy takeStart
  | .stop => unlessBusy takeStop
  | .resume => unlessBusy takeResume
  | .safe => unlessBusy takeSafe
  | .freeze => unlessBusy (takeFreeze argument)
  | .thaw => unlessBusy (takeThaw argument)
  | .commitWindow => unlessBusy (takeWindowCommand argument .commitWindow)
  | .dropWindow => unlessBusy (takeWindowCommand argument .dropWindow)
  | .unlock => unlessBusy (takeUnlock argument)
  | .reset => takeReset argument straps
  | .clearLongest => unlessBusy takeClearLongest

/-- A request by the general steps (R166): an undefined item number or command code is UNKNOWN, a read of a defined item is served, and a
write or command goes by its number or code to its own rule (log 11). -/
def takeGeneral (op : Operation) (number : Byte) (data : Word) (s : State) : State :=
  match op with
  | .readItem =>
    match Item.ofNumber number with
    | none => answer .unknown 0 s
    | some it => takeRead it s
  | .writeItem => takeWrite number data s
  | .command straps =>
    match Command.ofCode number with
    | none => answer .unknown 0 s
    | some c => giveCommand c data straps s

/-- UNKNOWN_REQUEST (R166). -/
def execUnknownRequest (op : Operation) (number : Byte) (data : Word) (s : State) : Host.Outcome State Fault Refusal :=
  .next (request (takeGeneral op number data) s)

end Sys2Proof.Machine
end

