-- ==== Sys2Proof/Machine/Dispatch.lean ====
section
/-! DEFINITION. The meaning of every command: one arm per constructor of Instr. -/

namespace Sys2Proof.Machine

/-- The effect of a command on everything but the queue. -/
def exec (i : Instr) (s : State) : Host.Outcome State Fault Refusal :=
  match i with
  | .powerOn pins => Sys2Proof.Machine.execPowerOn pins s
  | .resetInputAsserted => Sys2Proof.Machine.execResetInputAsserted s
  | .resetInputNegated straps sel => Sys2Proof.Machine.execResetInputNegated straps sel s
  | .fltInChange level => Sys2Proof.Machine.execFltInChange level s
  | .alrInChange level => Sys2Proof.Machine.execAlrInChange level s
  | .controllerAccess access grantFirst => Sys2Proof.Machine.execControllerAccess access grantFirst s
  | .cpReqNegated => Sys2Proof.Machine.execCpReqNegated s
  | .memoryPortGrant lines => Sys2Proof.Machine.execMemoryPortGrant lines s
  | .memoryPortAccessEnd lines data => Sys2Proof.Machine.execMemoryPortAccessEnd lines data s
  | .memoryPortTimeout => Sys2Proof.Machine.execMemoryPortTimeout s
  | .poolStallEnd => Sys2Proof.Machine.execPoolStallEnd s
  | .markStallEnd => Sys2Proof.Machine.execMarkStallEnd s
  | .endingStallEnd => Sys2Proof.Machine.execEndingStallEnd s
  | .retirement => Sys2Proof.Machine.execRetirement s
  | .safeFillComplete => Sys2Proof.Machine.execSafeFillComplete s
  | .reissueComplete => Sys2Proof.Machine.execReissueComplete s
  | .commitWindowComplete => Sys2Proof.Machine.execCommitWindowComplete s
  | .dropWindowComplete => Sys2Proof.Machine.execDropWindowComplete s
  | .watchdogExpiry => Sys2Proof.Machine.execWatchdogExpiry s
  | .freezeTimerExpiry safeFirst => Sys2Proof.Machine.execFreezeTimerExpiry safeFirst s
  | .qualifyingTimeReached cause => Sys2Proof.Machine.execQualifyingTimeReached cause s
  | .frameEnd frame straps => Sys2Proof.Machine.execFrameEnd frame straps s
  | .frameError bytes => Sys2Proof.Machine.execFrameError bytes s
  | .unknownRequest operation number data => Sys2Proof.Machine.execUnknownRequest operation number data s
  | .start argument => Sys2Proof.Machine.execStart argument s
  | .stop argument => Sys2Proof.Machine.execStop argument s
  | .resume argument => Sys2Proof.Machine.execResume argument s
  | .safe via argument => Sys2Proof.Machine.execSafe via argument s
  | .freeze argument => Sys2Proof.Machine.execFreeze argument s
  | .thaw argument => Sys2Proof.Machine.execThaw argument s
  | .commitWindow argument => Sys2Proof.Machine.execCommitWindow argument s
  | .dropWindow argument => Sys2Proof.Machine.execDropWindow argument s
  | .unlock argument => Sys2Proof.Machine.execUnlock argument s
  | .reset via argument straps => Sys2Proof.Machine.execReset via argument straps s
  | .clearLongest argument => Sys2Proof.Machine.execClearLongest argument s
  | .causesWrite value => Sys2Proof.Machine.execCausesWrite value s
  | .windowDescriptorWrite n part value => Sys2Proof.Machine.execWindowDescriptorWrite n part value s
  | .markAddressWrite value => Sys2Proof.Machine.execMarkAddressWrite value s
  | .markerAddressWrite value => Sys2Proof.Machine.execMarkerAddressWrite value s
  | .watchdogPeriodWrite value => Sys2Proof.Machine.execWatchdogPeriodWrite value s
  | .prescaleWrite value => Sys2Proof.Machine.execPrescaleWrite value s
  | .stageLowThresholdWrite value => Sys2Proof.Machine.execStageLowThresholdWrite value s
  | .freezeTimerWrite value => Sys2Proof.Machine.execFreezeTimerWrite value s
  | .qualifyWrite cause value => Sys2Proof.Machine.execQualifyWrite cause value s
  | .actionsWrite value => Sys2Proof.Machine.execActionsWrite value s
  | .priorityListAWrite value => Sys2Proof.Machine.execPriorityListAWrite value s
  | .priorityListBWrite value => Sys2Proof.Machine.execPriorityListBWrite value s
  | .quietMarkWrite value => Sys2Proof.Machine.execQuietMarkWrite value s
  | .forceWrite value => Sys2Proof.Machine.execForceWrite value s
  | .resumePolicyWrite value => Sys2Proof.Machine.execResumePolicyWrite value s
  | .lockWrite value => Sys2Proof.Machine.execLockWrite value s
  | .imagePointerWrite value => Sys2Proof.Machine.execImagePointerWrite value s
  | .imageDataWrite value => Sys2Proof.Machine.execImageDataWrite value s
  | .writeItem number value => Sys2Proof.Machine.execWriteItem number value s
  | .stateRead => Sys2Proof.Machine.execStateRead s
  | .captureRead => Sys2Proof.Machine.execCaptureRead s
  | .imageDataRead => Sys2Proof.Machine.execImageDataRead s
  | .periodCounterAdvance => Sys2Proof.Machine.execPeriodCounterAdvance s
  | .freezeTimerCountDown => Sys2Proof.Machine.execFreezeTimerCountDown s
  | .qualifyingTimerAdvance cause periods => Sys2Proof.Machine.execQualifyingTimerAdvance cause periods s

end Sys2Proof.Machine
end

