-- ==== Sys2Proof/Machine/Step.lean ====
section
/-! DEFINITION. One step of the block: it takes the command at the front of its queue. -/

namespace Sys2Proof.Machine

/-- Take the command at the front of the queue and answer its effect on the state with the queue's rest; with no command waiting
the block idles (log 2). -/
def step (s : State) : Host.Outcome State Fault Refusal :=
  match s.pending with
  | [] => .next s
  | c :: rest => exec c (s.setPending rest)

/-- The state with the command a word spells at the front of the queue; no word spells one, and the state is unchanged (log 3). -/
def State.withFetchWord (s : State) (nbits w : Nat) : State :=
  match decodeTableWord nbits w with
  | some c => s.setPending (c :: s.pending)
  | none => s

end Sys2Proof.Machine
end

