-- ==== Sys2Proof/Safety.lean ====
section
/-! DEFINITION. What is safe of a state: the invariants the manual gives the bridge, and the conditions under which a command is
taken. Statements are written in these terms. -/

namespace Sys2Proof.Machine

/-! ## When a command is taken -/

/-- A unicast frame can be addressed to the bridge: RESET is negated, the identity is not 7 and no reset has abandoned the frame on the
link (R162). -/
abbrev Listening (s : State) : Prop := s.lines.resetHeld = false ∧ s.identity ≠ 7 ∧ s.mg.frame ≠ .abandoned

/-- A write or command is given to its own rule: a frame can be addressed to the bridge and no command is in flight (R166). -/
abbrev Attending (s : State) : Prop := Listening s ∧ s.mg.command = none

/-- The management port with this reply held for the reply phase, and nothing else changed (R166). -/
def Management.replied (m : Management) (st : Status) (d : Word) : Management :=
  { m with frame := .taken, reply := some ⟨st, d⟩ }

/-- The management port with a refusal for this reason held for the reply phase (Table 11-2). -/
def Management.refused (m : Management) (r : Reason) : Management := m.replied .refused (fieldAt r.code 0)

/-- The Controller Port is free to take an access: CP-REQ is negated and RESET is not asserted (R1, R4). -/
abbrev CpOpen (s : State) : Prop := s.lines.resetHeld = false ∧ s.cp = .idle

/-- What a write or command whose rule tests the lock and the value, in no stated order, answers: the state `good` where neither fails,
and otherwise a refusal for a test that fails (R166, log 5). -/
abbrev LockTested (c : Instr) (bad : Prop) (r : Reason) (good s : State) : Prop :=
  (s.mg.locked = false → ¬bad → exec c s = .next good) ∧
  (s.mg.locked = false → bad → exec c s = .next (s.setMg (s.mg.refused r))) ∧
  (s.mg.locked = true → ¬bad → exec c s = .next (s.setMg (s.mg.refused .locked))) ∧
  (s.mg.locked = true → bad →
    exec c s = .next (s.setMg (s.mg.refused .locked)) ∨ exec c s = .next (s.setMg (s.mg.refused r)))

/-- The commands that are unicast requests (R166). -/
def isRequest : Instr → Bool
  | .safe .unicast _ | .reset .unicast _ _ => true
  | .unknownRequest .. | .start _ | .stop _ | .resume _ | .freeze _ | .thaw _ | .commitWindow _ | .dropWindow _
  | .unlock _ | .clearLongest _ | .causesWrite _ | .windowDescriptorWrite .. | .markAddressWrite _ | .markerAddressWrite _
  | .watchdogPeriodWrite _ | .prescaleWrite _ | .stageLowThresholdWrite _ | .freezeTimerWrite _ | .qualifyWrite ..
  | .actionsWrite _ | .priorityListAWrite _ | .priorityListBWrite _ | .quietMarkWrite _ | .forceWrite _
  | .resumePolicyWrite _ | .lockWrite _ | .imagePointerWrite _ | .imageDataWrite _ | .writeItem .. | .stateRead
  | .captureRead | .imageDataRead => true
  | _ => false

/-- The requests that a command in flight makes BUSY: writes of defined items and defined commands, RESET apart (R166 steps 3 and 4). -/
def isBusyTested : Instr → Bool
  | .reset .. | .unknownRequest .readItem .. | .stateRead | .captureRead | .imageDataRead => false
  | .writeItem number _ | .unknownRequest .writeItem number _ => (Item.ofNumber number).isSome
  | .unknownRequest (.command _) code _ => (Command.ofCode code).any fun c => decide (c ≠ .reset)
  | i => isRequest i

/-- What a taken RESET leaves: every block in its reset state without POWER-ON, the straps sampled, an access that waits passing as in
IDLE, and the end of the Memory Port access in flight discarded (R173, R174). -/
def afterReset (straps : BitVec 3) (mg : Management) (s : State) : State :=
  { State.blocksReset with
    pending := s.pending
    lines := s.lines
    identity := straps
    cp := (match s.cp with
      | .outstanding o =>
        .outstanding ⟨o.access, o.cls,
          if o.wait = .begun ∨ o.wait = .shared ∨ o.wait = .afterDiscard then .afterDiscard else .service .pass, false⟩
      | c => c)
    mp := s.mp.map fun p => { p with owner := .discarded }
    mg := mg }

/-- What every frame keeps: the queue, the lines, the strapped identity and the settings that no event but a write or a
reset changes. -/
abbrev SettingsKept (s t : State) : Prop :=
  t.pending = s.pending ∧ t.lines = s.lines ∧ t.identity = s.identity ∧ t.mark = s.mark ∧ t.marker = s.marker ∧
    t.pointer = s.pointer

/-! ## How an access ends -/

/-- The ways a Memory Port access ends: MP-ACK alone, MP-FAIL with or without MP-ACK, or neither line for 20 µs (R2, R99). -/
inductive AccessEnd where
  | acked (data : Word)
  | failed (ack : Bool) (data : Word)
  | timedOut
  deriving DecidableEq, Repr

/-- The command that tells the bridge of it. -/
def AccessEnd.command : AccessEnd → Instr
  | .acked data => .memoryPortAccessEnd ⟨true, false⟩ data
  | .failed ack data => .memoryPortAccessEnd ⟨ack, true⟩ data
  | .timedOut => .memoryPortTimeout

/-- The access has ended well (R2). -/
def AccessEnd.good : AccessEnd → Bool
  | .acked _ => true
  | .failed _ _ | .timedOut => false

/-- The data that a read which ended well has brought, and zero where it has failed. -/
def AccessEnd.data : AccessEnd → Word
  | .acked data => data
  | .failed _ _ | .timedOut => 0

/-- The port once the access has ended: no access in flight, and the lines as found. -/
def AccessEnd.closes (e : AccessEnd) (s : State) : State :=
  (match e with
    | .acked _ => s.setLines { s.lines with mpAck := true, mpFail := false }
    | .failed ack _ => s.setLines { s.lines with mpAck := ack, mpFail := true }
    | .timedOut => s).setMp none

/-- A failed access latches MEMORY (R99). -/
def AccessEnd.latches (e : AccessEnd) (s : State) : State := if e.good then s else latch .memory s

/-- The end brings neither SAFE entry nor the end of a reissue, so that the requester goes on (R100, R128, R150, log 8). -/
abbrev AccessEnd.goesOn (e : AccessEnd) (s : State) : Prop :=
  e.good = true ∨ s.causes.flag .memory = true ∨ s.causes.actionSafe .memory = false ∨ s.ctl.mode = .idle ∨
    (s.ctl.mode = .safe ∧ s.reissue.resuming = false)

/-- The store with owed cleared on lanes of one word, and nothing else changed (R61). -/
abbrev OwedCleared (before after : Store) (w : Nat) (l : Lanes) : Prop :=
  (∀ a, after.byte a = before.byte a) ∧
    ∀ j : Nat, after.marksAt j =
      if j = w then { before.marksAt w with owed := (before.marksAt w).owed &&& ~~~l } else before.marksAt j

/-- What the freeze timer has become where the frozen set changed from one to another (R117). -/
abbrev TimerFollows (before after : FreezeControl) (frozen now : List WinIdx) : Prop :=
  after.setting = before.setting ∧ after.range = before.range ∧
    (after.running, after.remaining, after.startRange) =
      (if frozen = [] ∧ now ≠ [] then (true, before.setting, before.range)
       else if frozen ≠ [] ∧ now = [] then (false, 0, before.startRange)
       else (before.running, before.remaining, before.startRange))

/-! ## Where the walk and the reissue come to, and what is handed to the fill -/

/-- A place is the place of another or comes after it: ascending window and, within a window, ascending address (R76, R147). -/
abbrev NotBefore (n : WinIdx) (off : Nat) (m : WinIdx) (k : Nat) : Prop := n < m ∨ n = m ∧ off ≤ k

/-- The first place of which `p` holds. -/
abbrev FirstPlace (p : WinIdx → Nat → Prop) (n : WinIdx) (off : Nat) : Prop := p n off ∧ ∀ m k, p m k → NotBefore n off m k

/-- The walk, from `before`, has come to the first word of its set that lies `ahead` and is not FRESH, and has finished with sampling-done
where there is none (R76, R78). -/
abbrev WalkComesTo (ws : Windows) (st : Store) (ahead : WinIdx → Nat → Prop) (before after : Sampler) : Prop :=
  let toRead := fun (n : WinIdx) (off : Nat) => n ∈ before.walkSet ∧ off < (ws[n]).record.length.toNat ∧ ahead n off ∧
    (st.marksAt ((ws[n]).record.imageBase.toNat + off)).fresh = false
  (∀ n off, FirstPlace toRead n off → after = { before with state := .walking, position := some (n, off) }) ∧
    ((∀ n off, ¬toRead n off) → after = { before with state := .finished, position := none, done := true })

/-- The reissue, from a place on, has come to the first word with a valid lane of a defined OUTPUT window that is not cut off, or past the
last window to its marker or its end; of the windows it has passed, the cut-off ones owe every valid byte, and nothing else has
changed (R146 to R148). -/
abbrev ReissueComesTo (s : State) (n : WinIdx) (off : Nat) (t : State) : Prop :=
  let cut := fun m : WinIdx => (s.win[m]).freeze = .frozen ∨ (s.win[m]).freeze = .thawPending
  let output := fun m : WinIdx => (s.win[m]).defined = true ∧ (s.win[m]).record.kind = .output
  let toWrite := fun (m : WinIdx) (k : Nat) => output m ∧ ¬cut m ∧ NotBefore n off m k ∧ k < (s.win[m]).record.length.toNat ∧
    (s.image.marksAt ((s.win[m]).record.imageBase.toNat + k)).valid ≠ 0
  let passes := fun (upTo : WinIdx → Prop) => ∀ w : Nat,
    let owes := ∃ m, n ≤ m ∧ upTo m ∧ output m ∧ cut m ∧ (s.win[m]).record.inImage w = true
    (owes → t.image.marksAt w = { s.image.marksAt w with owed := (s.image.marksAt w).valid }) ∧
      (¬owes → t.image.marksAt w = s.image.marksAt w)
  t = (s.setImage t.image).setReissue t.reissue ∧ (∀ a, t.image.byte a = s.image.byte a) ∧
    (∀ m k, FirstPlace toWrite m k →
      t.reissue = { s.reissue with position := some (m, k) } ∧ passes (fun l => l < m)) ∧
    ((∀ m k, ¬toWrite m k) →
      t.reissue = { s.reissue with position := none, phase := if s.marker.enabled = true then .marker else .due } ∧
        passes (fun _ => True))

/-- Windows have been handed to the safe fill, in this order: each leaves its place in the list and stands at the tail, with all its words
to be written; a fill that was at rest begins; a write in flight of the window at the head, if that is handed over, belongs to its
former run (R140). -/
abbrev HandedOver (l : List WinIdx) (s t : State) : Prop :=
  t.fill = (if s.fill.active = true then
      { s.fill with
        list := s.fill.list.filter (fun m => decide (m ∉ l)) ++ l
        offset := if s.fill.list.head?.any (fun h => decide (h ∈ l)) = true then 0 else s.fill.offset }
    else { list := s.fill.list.filter (fun m => decide (m ∉ l)) ++ l, offset := 0, active := true, phase := .words }) ∧
  (∀ p m x, s.mp = some p → p.owner = .fillWord m x → s.fill.list.head? = some m →
    t.mp = some { p with owner := .fillWord m (x && decide (m ∉ l)) }) ∧
  ((∀ p m, s.mp = some p → p.owner ≠ .fillWord m true) → t.mp = s.mp) ∧
  ((t.mp.map fun p => (p.addr, p.write, p.enables, p.data)) = s.mp.map fun p => (p.addr, p.write, p.enables, p.data))

/-- THAW has been applied to FROZEN windows under the rule of the mode, the access that waits not being routed anew yet: THAW-PENDING in
RUN, OPEN and of the first-flush set in ARMED, OPEN and handed over by their policy in SAFE (R109 to R111, R117, R118, R140). -/
abbrev ThawGives (l : List WinIdx) (s t : State) : Prop :=
  let filled := l.filter fun n => (s.win[n]).defined && decide ((s.win[n]).record.kind = .output) &&
    decide ((s.win[n]).record.policy ≠ .hold)
  (∀ n : WinIdx, t.win[n] =
    if n ∈ l then { s.win[n] with freeze := if s.ctl.mode = .run then .thawPending else .opened } else s.win[n]) ∧
  t.freeze.firstFlush = (if s.ctl.mode = .armed then joinWin s.freeze.firstFlush l else s.freeze.firstFlush) ∧
  TimerFollows s.freeze t.freeze (frozenSet s.win) (frozenSet t.win) ∧
  (s.ctl.mode = .safe → filled ≠ [] → HandedOver filled s t) ∧
  (s.ctl.mode ≠ .safe ∨ filled = [] → t.fill = s.fill ∧ t.mp = s.mp) ∧
  t = (((s.setWin t.win).setFreeze t.freeze).setFill t.fill).setMp t.mp

/-! ## Invariants -/

/-- The modes in which timing runs (R154). -/
abbrev Mode.timed (m : Mode) : Prop := m = .armed ∨ m = .run

/-- Freeze states by mode (R106, Table 7-1): OPEN in IDLE and ENDING and while the window is undefined or stop-pending is set, and pending
in RUN alone. -/
abbrev FreezeInv (s : State) : Prop :=
  ∀ n : WinIdx,
    (((s.win[n]).defined = false ∨ s.ctl.mode = .idle ∨ s.ctl.mode = .ending ∨ s.ctl.stopPending = true) →
      (s.win[n]).freeze = .opened) ∧
    ((s.win[n]).freeze = .freezePending ∨ (s.win[n]).freeze = .thawPending → s.ctl.mode = .run)

/-- What each mode allows the blocks to hold (Table 2-1; R27, R37, R74, R89, R110, R137, R146, R154, R160). -/
abbrev ModeInv (s : State) : Prop :=
  FreezeInv s ∧
    (s.ctl.stopPending = true → s.ctl.mode = .run) ∧
    (s.pool.openStage ≠ [] → s.ctl.mode = .run) ∧
    (s.sampler.state ≠ .stopped → s.ctl.mode = .run) ∧
    (s.timing.running = true ↔ s.ctl.mode.timed) ∧
    (s.timing.wdState ≠ .stopped ↔ s.ctl.mode.timed) ∧
    (s.release.queue ≠ [] → s.ctl.mode = .run ∨ s.ctl.mode = .ending) ∧
    (s.ctl.mode = .ending → s.release.queue ≠ []) ∧
    s.release.queue.length ≤ Config.queueLimit ∧
    (s.freeze.firstFlush ≠ [] → s.ctl.mode.timed) ∧
    (s.fill.active = true → s.ctl.mode = .safe) ∧
    (s.reissue.resuming = true ↔ s.mg.command = some .reissue) ∧
    (s.reissue.resuming = true → s.ctl.mode = .safe) ∧
    (s.mg.command ≠ none → s.reissue.resuming = true ∨ s.ctl.mode = .idle)

/-- Sets of windows that are gone through in ascending index are held so, and the walk stands at a word of a window of its set exactly
while it is WALKING, with sampling-done set exactly when it has FINISHED (Table 5-1, R75, R76, R78, R92). -/
abbrev OrderInv (s : State) : Prop :=
  s.sampler.walkSet.Pairwise (· < ·) ∧
    (∀ p, s.sampler.position = some p → s.sampler.state = .walking ∧ p.1 ∈ s.sampler.walkSet) ∧
    (s.sampler.state = .walking → s.sampler.position ≠ none) ∧
    (s.sampler.done = true ↔ s.sampler.state = .finished) ∧
    ∀ r ∈ s.release.queue, r.flushSet.Pairwise (· < ·)

/-- The window table holds only windows that the checks of COMMIT WINDOW pass beside each other, and the mark and marker addresses stay
outside them (R7, R10, Table 1-2). -/
abbrev WindowInv (s : State) : Prop :=
  ∀ n : WinIdx, (s.win[n]).defined = true →
    rangeOk (s.win[n]).record = true ∧
    overlapOk (s.win[n]).record (otherRecords s.win n) = true ∧
    markOk (s.win[n]).record s.mark s.marker = true ∧
    slicesOk (s.win[n]).record (otherRecords s.win n) = true

/-- The marks a store word carries belong to the slice it lies in, and an owed byte is valid (R58, 4.2). -/
def MarksInv (s : State) : Prop :=
  ∀ w : Nat,
    (inSomeImage s.win w = false → s.image.marksAt w = Marks.clear) ∧
    ((s.image.marksAt w).owed &&& ~~~(s.image.marksAt w).valid = 0) ∧
    ∀ n : WinIdx, (s.win[n]).defined = true → (s.win[n]).record.inImage w = true →
      match (s.win[n]).record.kind with
      | .input => (s.image.marksAt w).valid = 0 ∧ (s.image.marksAt w).owed = 0
      | .output => (s.image.marksAt w).held = false ∧ (s.image.marksAt w).fresh = false

/-- While the RESET input is asserted every block stays in its reset state, and nothing is asserted at either port (R4, R17). -/
def HeldInv (s : State) : Prop :=
  s.lines.resetHeld = true →
    s = (((State.blocksReset.setPending s.pending).setLines s.lines).setIdentity s.identity).setCp s.cp ∧
    (match s.cp with
      | .idle => True
      | .outstanding o => o.cls = .plain ∧ o.wait = .held ∧ o.effectTaken = false
      | .ended ack fail data => ack = false ∧ fail = false ∧ data = 0)

end Sys2Proof.Machine
end

