-- ==== Sys2Proof/Certificates/Slice0/Obligations.lean ====
section
/-! DEFINITION. The statements about the bridge, for the provers. A statement that names a state on its right-hand side says the whole
next state: what it does not name is unchanged. -/

open Sys2Proof Sys2Proof.Machine

/-! ## The queue, and every command -/

/-- A step takes the command at the front of the queue; on an empty queue the block idles (log 2, the model's choice). -/
def Obligations.StepTakesFront : Prop :=
  (∀ (c : Instr) (rest : List Instr) (s : State), s.pending = c :: rest → step s = exec c (s.setPending rest)) ∧
    ∀ s : State, s.pending = [] → step s = .next s

/-- Every command answers a next state, in every state and whatever its operands, and leaves the queue of commands as it is: the
bridge has no event that stops it. -/
def Obligations.EveryCommandAnswersNext : Prop :=
  ∀ (c : Instr) (s : State), ∃ t, exec c s = .next t ∧ t.pending = s.pending

/-- A unicast request that is not for the bridge, or comes while RESET is asserted or after a reset has abandoned the frame, changes
nothing (R162). A write of a defined item or a defined command, RESET apart, is answered BUSY while a command is in flight, sets
COLLISION and does nothing else (R166 steps 3 and 4, R170). -/
def Obligations.RequestsNotTaken : Prop :=
  (∀ (c : Instr) (s : State), isRequest c = true → ¬Listening s → exec c s = .next s) ∧
  (∀ (c : Instr) (s : State), isBusyTested c = true → Listening s → s.mg.command ≠ none →
     exec c s = .next (s.setMg ({ s.mg with collision := true }.replied .busy 0)))

/-! ## Reset -/

/-- Every block is in its reset state when power-on has ended, with POWER-ON the one latched cause. The lines and the identity,
which the manual gives no value for, are not named (log 4). -/
def Obligations.ResetLeaves : Prop :=
  let r := State.reset
  r.mp = none ∧ r.background = .sampler ∧
    (∀ n : WinIdx, r.win[n] = ⟨⟨0, .input, .hold, 0, 0, 0⟩, ⟨0, .input, .hold, 0, 0, 0⟩, false, .opened⟩) ∧
    r.mark = ⟨0, false⟩ ∧ r.marker = ⟨0, false⟩ ∧
    r.ctl = { mode := .idle, number := 0, stopPending := false, first := false, torn := false } ∧
    r.pool = { openStage := [], threshold := 16 } ∧
    (∀ a, r.image.byte a = 0) ∧ (∀ w, r.image.marksAt w = ⟨0, 0, false, false⟩) ∧ r.pointer = 0 ∧
    r.sampler = { state := .stopped, position := none, walkSet := [], done := false } ∧ samplerRequest r = .none ∧
    r.release.queue = [] ∧ r.fill.list = [] ∧ r.fill.active = false ∧
    r.reissue.resuming = false ∧ r.reissue.position = none ∧ r.reissue.policy = .fresh ∧
    r.freeze = { firstFlush := [], setting := 0, range := .seconds, running := false, remaining := 0, startRange := .seconds } ∧
    (∀ c, r.causes.flag c = decide (c = .powerOn)) ∧
    (∀ c, r.causes.actionSafe c = decide (c = .wdog ∨ c = .memory ∨ c = .chain)) ∧
    r.causes.priority = [.wdog, .memory, .chain, .torn, .overrun, .stageLow, .freezeExpired, .inputWrite, .link, .powerOn] ∧
    r.causes.pendingFirst = none ∧ r.causes.quietMark = 10 ∧ r.causes.chain = ⟨2, 0⟩ ∧ r.causes.stageLow = ⟨10, 0⟩ ∧
    r.causes.forceFault = false ∧ r.causes.forceAlert = false ∧
    r.timing = { count := 0, running := false, last := 0, longest := 0, capture := 0, captured := false,
                 captureOverrun := false, prescale := 1, prescaleCount := 0, wdPeriod := 0, wdLimit := 0, wdState := .stopped } ∧
    r.mg.command = none ∧ r.mg.lastResult = ⟨.none, 0, 0⟩ ∧ r.mg.done = false ∧ r.mg.collision = false ∧
    r.mg.locked = false ∧ r.mg.lockCode = 0

/-- POWER_ON: every block goes to its reset state and POWER-ON latches; an access that the controller still holds out passes as in
IDLE, and one already answered waits for CP-REQ. While RESET is asserted as well, the access is held and POWER-ON waits (log 16
and 17, the model's reading). -/
def Obligations.PowerOnResult : Prop :=
  ∀ (pins : PowerPins) (s : State),
    (s.lines.resetHeld = false →
      exec (.powerOn pins) s = .next { State.reset with
        pending := s.pending
        lines := { s.lines with fltIn := pins.fltIn, alrIn := pins.alrIn }
        identity := pins.straps
        cp := (match s.cp with
          | .idle => .idle
          | .outstanding o => .outstanding ⟨o.access, .plain, .service .pass, false⟩
          | .ended _ _ _ => .ended false false 0)
        mg := { Management.reset with frame := if pins.sel then .abandoned else .none } }) ∧
    (s.lines.resetHeld = true →
      exec (.powerOn pins) s = .next { State.blocksReset with
        pending := s.pending
        lines := { s.lines with fltIn := pins.fltIn, alrIn := pins.alrIn }
        identity := pins.straps
        cp := (match s.cp with
          | .idle => .idle
          | .outstanding o => .outstanding ⟨o.access, .plain, .held, false⟩
          | .ended _ _ _ => .ended false false 0) })

/-- RESET_INPUT_ASSERTED: every block goes to its reset state, no cause is latched, the Memory Port access is abandoned, and the
controller's access is held (R4; an access already answered by log 16). RESET_INPUT_NEGATED: from the state in which RESET holds
the bridge, it stands as after power-on, with the straps just sampled; a held access passes as in IDLE. Where RESET was not
asserted there is nothing to negate (R4, R135). -/
def Obligations.ResetLinesResult : Prop :=
  (∀ s : State,
     exec .resetInputAsserted s = .next { State.blocksReset with
       pending := s.pending
       lines := { s.lines with resetHeld := true }
       identity := s.identity
       cp := (match s.cp with
         | .idle => .idle
         | .outstanding o => .outstanding ⟨o.access, .plain, .held, false⟩
         | .ended _ _ _ => .ended false false 0) }) ∧
  (∀ (straps : BitVec 3) (sel : Bool) (s : State),
     (s.lines.resetHeld = true → HeldInv s →
       exec (.resetInputNegated straps sel) s = .next { State.reset with
         pending := s.pending
         lines := { s.lines with resetHeld := false }
         identity := straps
         cp := (match s.cp with
           | .outstanding o => .outstanding ⟨o.access, .plain, .service .pass, false⟩
           | c => c)
         mg := { Management.reset with frame := if sel then .abandoned else .none } }) ∧
     (s.lines.resetHeld = false → exec (.resetInputNegated straps sel) s = .next s))

/-- RESET: with the argument 0x96 it is taken from any state of the bridge, locked or with a command in flight, and by a unicast is
answered ACK; with any other argument a unicast is refused and a broadcast is not acted on (R173, R174, R165). Of an access that
waits it is the model's choice that it keeps the class of its taking (log 27, log 30) and that an effect it has had is forgotten
(log 9). -/
def Obligations.ResetCommandResult : Prop :=
  ∀ (argument : Word) (straps : BitVec 3) (s : State),
    (Listening s → argument = 0x96#32 →
      exec (.reset .unicast argument straps) s =
        .next (afterReset straps (Management.reset.replied .ack 0) s)) ∧
    (Listening s → argument ≠ 0x96#32 →
      exec (.reset .unicast argument straps) s = .next (s.setMg (s.mg.refused .argument))) ∧
    (s.lines.resetHeld = false → s.mg.frame ≠ .abandoned → argument = 0x96#32 →
      exec (.reset .broadcast argument straps) s = .next (afterReset straps Management.reset s)) ∧
    (s.lines.resetHeld = false → s.mg.frame ≠ .abandoned → argument ≠ 0x96#32 →
      exec (.reset .broadcast argument straps) s = .next (s.setMg { s.mg with frame := .none, reply := none }))

/-! ## Invariants -/

/-- The state after power-on has every invariant. -/
def Obligations.InvariantsAtReset : Prop :=
  HeldInv State.reset ∧ ModeInv State.reset ∧ OrderInv State.reset ∧ WindowInv State.reset ∧ MarksInv State.reset ∧
    State.reset.image.wf

/-- While the RESET input is asserted no command but its negation moves the bridge out of its reset state, and nothing is driven at
either port (R4, R17). -/
def Obligations.HeldKept : Prop :=
  ∀ s t : State, HeldInv s → step s = .next t → HeldInv t

/-- Every step keeps what each mode allows the blocks to hold (Table 2-1), and the order of the walk set and the flush sets, with
the walk's place in its set (Table 5-1, R76, R92). -/
def Obligations.ModesKept : Prop :=
  (∀ s t : State, ModeInv s → step s = .next t → ModeInv t) ∧ ∀ s t : State, OrderInv s → step s = .next t → OrderInv t

/-- Every step keeps the image store's canonical form, so that equal stores are equal data (log 26). -/
def Obligations.ImageFormKept : Prop :=
  ∀ s t : State, s.image.wf → step s = .next t → t.image.wf

/-- Every step keeps the window table free of overlaps, and the mark and marker addresses outside every window (R7, R10). -/
def Obligations.WindowsKept : Prop :=
  ∀ s t : State, WindowInv s → step s = .next t → WindowInv t

/-- Every step keeps the marks of the image store within the slices they belong to, and owed on valid bytes alone (R58, 4.2). -/
def Obligations.MarksKept : Prop :=
  ∀ s t : State, s.image.wf → WindowInv s → MarksInv s → step s = .next t → MarksInv t

/-! ## Causes and fault lines (08) -/

/-- FLT-OUT and ALR-OUT are asserted by the line passed down, by their force bit, or by a set flag of their class that is not quiet,
and by nothing else (R130, R132). -/
def Obligations.ChainLinesDriven : Prop :=
  ∀ s : State,
    let quiet := fun c => s.causes.quietMark.val ≤ s.causes.priority.idxOf c ∧ s.causes.actionSafe c = false
    (fltOut s = true ↔ s.lines.fltIn = true ∨ s.causes.forceFault = true ∨
      ∃ c ∈ [Cause.wdog, .memory, .chain, .torn], s.causes.flag c = true ∧ ¬quiet c) ∧
    (alrOut s = true ↔ s.lines.alrIn = true ∨ s.causes.forceAlert = true ∨
      ∃ c ∈ [Cause.overrun, .stageLow, .freezeExpired, .inputWrite, .link, .powerOn], s.causes.flag c = true ∧ ¬quiet c)

/-- What the latching of a cause does: nothing where the flag stands; the flag alone where the action is CONTINUE or the mode is
IDLE, or SAFE with no reissue; and with action SAFE the entry to SAFE from ARMED, RUN and ENDING, and the end of a reissue (R121,
R128, R150). The end of a reissue: resuming is clear, the command in flight ends with ABANDONED, a write of the reissue or of a fill
in flight goes on as one given up, the fill begins anew over the OPEN OUTPUT windows with a policy to write, and nothing else
changes (R137, R150). The lead cause is set and not quiet, no cause before it in the priority list is so, and there is none only
where no listed cause is (R131). -/
def Obligations.CausesLatchAndLead : Prop :=
  (∀ (c : Cause) (s : State),
     (s.causes.flag c = true → latch c s = s) ∧
     (s.causes.flag c = false →
       (s.causes.actionSafe c = false ∨ s.ctl.mode = .idle ∨ (s.ctl.mode = .safe ∧ s.reissue.resuming = false)) →
         latch c s = s.setCauses { s.causes with flags := s.causes.flags ||| (1#10 <<< c.num) }) ∧
     (s.causes.flag c = false → s.causes.actionSafe c = true →
       (s.ctl.mode = .armed ∨ s.ctl.mode = .run ∨ s.ctl.mode = .ending) →
         latch c s = enterSafe (s.setCauses { s.causes with flags := s.causes.flags ||| (1#10 <<< c.num) }) ∧
           (latch c s).ctl.mode = .safe) ∧
     (s.causes.flag c = false → s.causes.actionSafe c = true → s.ctl.mode = .safe → s.reissue.resuming = true →
       let filled := allWin.filter fun n => (s.win[n]).defined && decide ((s.win[n]).record.kind = .output) &&
         decide ((s.win[n]).record.policy ≠ .hold) && decide ((s.win[n]).freeze = .opened)
       latch c s = { s with
         causes := { s.causes with flags := s.causes.flags ||| (1#10 <<< c.num) }
         reissue := { s.reissue with resuming := false, position := none }
         mg := { s.mg with command := none, done := true, lastResult := { s.mg.lastResult with result := .abandoned } }
         mp := s.mp.map fun p => { p with owner := match p.owner with
           | .fillWord n _ => .fillWord n false
           | .safeMarker _ => .safeMarker false
           | .reissueWord n _ => .reissueWord n false
           | .reissueMarker _ => .reissueMarker false
           | o => o }
         fill := { list := filled, offset := 0, active := true,
                   phase := if filled ≠ [] then .words else if s.marker.enabled = true then .marker else .due } })) ∧
  (∀ s : State,
     (∀ c, s.causes.leadCause = some c →
       s.causes.flag c = true ∧ s.causes.isQuiet c = false ∧
         ∀ d ∈ s.causes.priority, s.causes.priority.idxOf d < s.causes.priority.idxOf c →
           s.causes.flag d = false ∨ s.causes.isQuiet d = true) ∧
     (s.causes.leadCause = none → ∀ d ∈ s.causes.priority, s.causes.flag d = false ∨ s.causes.isQuiet d = true))

/-- A level cause and its live condition: at qualifying time 0 the flag follows, a rise being a latching; above 0 a false condition
puts the timer at 0 and a true one changes nothing of itself (R122, R123). FLT_IN_CHANGE and ALR_IN_CHANGE: the line takes the
level, which the fault line or the alert line passes down at once, RESET asserted or not; FLT-IN is the condition of CHAIN,
which follows it while RESET is negated (R132). QUALIFYING_TIME_REACHED: a level cause whose condition has stood for its
qualifying time with its flag clear latches (R122). The live conditions: of CHAIN FLT-IN; of STAGE LOW a threshold that is not 0
with the free count at or below it. The free count is 256 less the open and the queued entries, and the queued count takes in an
entry whose write is in flight after its record has given it up (R47, R48, R132). -/
def Obligations.LevelCausesFollow : Prop :=
  (∀ s : State,
     let orphan := ∃ p n, s.mp = some p ∧ (p.owner = .entry n .purged ∨ p.owner = .entry n .dropped)
     let held := (s.release.queue.map fun r => r.entries.length).sum
     condition s .chain = s.lines.fltIn ∧
     (condition s .stageLow = true ↔ s.pool.threshold ≠ 0 ∧ freeCount s ≤ s.pool.threshold.toNat) ∧
     stageLowCondition s = condition s .stageLow ∧ freeCount s = 256 - openCount s - queuedCount s ∧
     openCount s = s.pool.openStage.length ∧ (orphan → queuedCount s = held + 1) ∧ (¬orphan → queuedCount s = held)) ∧
  (∀ (c : LevelCause) (s : State),
     ((s.causes.level c).time = 0 → condition s c = true → followLevel c s = latch c.cause s) ∧
     ((s.causes.level c).time = 0 → condition s c = false →
       followLevel c s = s.setCauses { s.causes with flags := s.causes.flags &&& ~~~(1#10 <<< c.cause.num) }) ∧
     ((s.causes.level c).time ≠ 0 → condition s c = true → followLevel c s = s) ∧
     ((s.causes.level c).time ≠ 0 → condition s c = false →
       followLevel c s = s.setCauses (s.causes.setLevel c { s.causes.level c with timer := 0 }))) ∧
  (∀ (level : Bool) (s : State),
     exec (.alrInChange level) s = .next (s.setLines { s.lines with alrIn := level }) ∧
     (s.lines.resetHeld = true → exec (.fltInChange level) s = .next (s.setLines { s.lines with fltIn := level })) ∧
     (s.lines.resetHeld = false →
       exec (.fltInChange level) s = .next (followLevel .chain (s.setLines { s.lines with fltIn := level })))) ∧
  (∀ (c : LevelCause) (s : State), s.lines.resetHeld = false → (s.causes.level c).time ≠ 0 → condition s c = true →
     s.causes.flag c.cause = false →
     ((s.causes.level c).time.toNat * 8000 ≤ (s.causes.level c).timer →
       exec (.qualifyingTimeReached c) s = .next (latch c.cause s)) ∧
     ((s.causes.level c).timer < (s.causes.level c).time.toNat * 8000 → exec (.qualifyingTimeReached c) s = .next s))

/-! ## Timers (07, 08, 10) -/

/-- The three clocks go on by one unit: a running period counter rises and stays at its greatest value, a running freeze timer falls
and stays at 0, and the timer of a qualifying level cause rises by the periods passed, no further than its qualifying time.
Nothing else moves, and while RESET is asserted nothing at all (R153, R117, R122, R4). WATCHDOG_EXPIRY: a running watchdog whose
limit the count has reached is EXPIRED and WDOG latches; before that nothing happens (R160). -/
def Obligations.ClocksAdvance : Prop :=
  (∀ s : State,
     (s.lines.resetHeld = false →
       exec .periodCounterAdvance s = .next (s.setTiming { s.timing with
         count := if s.timing.running = true ∧ s.timing.count ≠ 0xFFFFFF#24 then s.timing.count + 1 else s.timing.count }) ∧
       exec .freezeTimerCountDown s = .next (s.setFreeze { s.freeze with
         remaining := if s.freeze.running = true ∧ s.freeze.remaining ≠ 0 then s.freeze.remaining - 1 else s.freeze.remaining }) ∧
       ∀ (c : LevelCause) (k : Nat),
         exec (.qualifyingTimerAdvance c k) s = .next (s.setCauses (s.causes.setLevel c { s.causes.level c with
           timer :=
             if (s.causes.level c).time ≠ 0 ∧ condition s c = true ∧ s.causes.flag c.cause = false then
               min ((s.causes.level c).timer + k) ((s.causes.level c).time.toNat * 8000)
             else (s.causes.level c).timer }))) ∧
     (s.lines.resetHeld = true →
       exec .periodCounterAdvance s = .next s ∧ exec .freezeTimerCountDown s = .next s ∧
         ∀ (c : LevelCause) (k : Nat), exec (.qualifyingTimerAdvance c k) s = .next s)) ∧
  (∀ s : State, s.lines.resetHeld = false →
     (s.timing.wdState = .running → s.timing.wdLimit ≤ s.timing.count.toNat →
       exec .watchdogExpiry s = .next (latch .wdog (s.setTiming { s.timing with wdState := .expired }))) ∧
     (s.timing.wdState ≠ .running ∨ s.timing.count.toNat < s.timing.wdLimit → exec .watchdogExpiry s = .next s))

/-- FREEZE_TIMER_EXPIRY: the timer stops, FREEZE EXPIRED latches, and THAW is applied to the FROZEN windows and to no other by the rule of
the mode, a waiting access being routed anew; in either order, by the operand (R118, R15; log 7). Where the latching brings no SAFE
entry and ends no reissue, the flag and the thaws are all. With the action SAFE the bridge is in SAFE after an expiry in ARMED or
RUN, and a reissue is abandoned: in both orders every window that was FROZEN is OPEN, the pending states settled at an entry, and
the fill list holds each window to be filled once, those thawed at its tail where the entry came first and at their own index where
the thaws did (R114, R128, R137, R140, R150). -/
def Obligations.FreezeTimerExpires : Prop :=
  (∀ (l : List WinIdx) (s : State), (s.ctl.mode = .armed ∨ s.ctl.mode = .run ∨ s.ctl.mode = .safe) → l.Pairwise (· < ·) →
     (∀ n ∈ l, (s.win[n]).freeze = .frozen) → ∃ t, ThawGives l s t ∧ thawAll l s = reroute s t) ∧
  (∀ s : State, s.lines.resetHeld = false → s.freeze.running = true → s.freeze.remaining = 0 →
     let frozen := allWin.filter fun n => decide ((s.win[n]).freeze = .frozen)
     let stopped := s.setFreeze { s.freeze with running := false }
     let expired := { s.causes with flags := s.causes.flags ||| (1#10 <<< 6) }
     exec (.freezeTimerExpiry true) s = .next (thawAll frozen (latch .freezeExpired stopped)) ∧
     exec (.freezeTimerExpiry false) s = .next (latch .freezeExpired (thawAll frozen stopped)) ∧
     ((s.ctl.mode = .armed ∨ s.ctl.mode = .run ∨ s.ctl.mode = .safe) →
       s.causes.actionSafe .freezeExpired = false ∨ s.causes.flag .freezeExpired = true ∨
         (s.ctl.mode = .safe ∧ s.reissue.resuming = false) →
       ∃ t, ThawGives frozen stopped t ∧
         exec (.freezeTimerExpiry true) s = .next (reroute (stopped.setCauses expired) (t.setCauses expired)) ∧
         ((∀ o, s.cp = .outstanding o → o.wait.movable = false) →
           ∀ first, exec (.freezeTimerExpiry first) s = .next (t.setCauses expired)))) ∧
  (∀ (s : State) (first : Bool), s.lines.resetHeld = false → s.freeze.running = true → s.freeze.remaining = 0 →
     s.causes.actionSafe .freezeExpired = true → s.causes.flag .freezeExpired = false →
     (s.ctl.mode = .armed ∨ s.ctl.mode = .run ∨ (s.ctl.mode = .safe ∧ s.reissue.resuming = true)) →
     (∀ o, s.cp = .outstanding o → o.wait.movable = false) →
     ∃ v, exec (.freezeTimerExpiry first) s = .next v ∧ v.ctl.mode = .safe ∧ v.causes.flag .freezeExpired = true ∧
       (∀ n : WinIdx, v.win[n] = { s.win[n] with freeze := match s.ctl.mode, (s.win[n]).freeze with
         | _, .frozen => .opened
         | .safe, f => f
         | _, .freezePending => .frozen
         | _, .thawPending | _, .opened => .opened }) ∧
       (let filled := allWin.filter fun n => (s.win[n]).defined && decide ((s.win[n]).record.kind = .output) &&
          decide ((s.win[n]).record.policy ≠ .hold) && decide ((v.win[n]).freeze = .opened)
        let before := filled.filter fun n => decide ((s.win[n]).freeze ≠ .frozen)
        let thawed := filled.filter fun n => decide ((s.win[n]).freeze = .frozen)
        let begun := if first = true then before else filled
        v.fill = { list := if first = true then before ++ thawed else filled, offset := 0, active := true,
                   phase := if begun ≠ [] then .words else if s.marker.enabled = true then .marker else .due }) ∧
       (s.ctl.mode = .safe → v.reissue.resuming = false ∧ v.mg.command = none ∧ v.mg.done = true ∧
         v.mg.lastResult = { s.mg.lastResult with result := .abandoned }))

/-! ## The management link (11) -/

/-- The check byte of a request: the register starts at 0, takes the 48 bits of bytes 0 to 5 in the order they are sent, and after
each bit is shifted and, where the bits compared differed, exclusive-ORed with 07H; it agrees with byte 6 or there is a check
mismatch; the check byte of a reply is computed in the same way over its first five bytes and is its last (R163). -/
def Obligations.CheckByteComputed : Prop :=
  (∀ b : RequestBytes,
    b.expected = ([b.header, b.number, b.data3, b.data2, b.data1, b.data0].flatMap fun v =>
        [v[7], v[6], v[5], v[4], v[3], v[2], v[1], v[0]]).foldl
      (fun (r : Byte) (bit : Bool) => if r[7] = bit then r <<< 1 else (r <<< 1) ^^^ 0x07#8) 0#8) ∧
    (∀ b : RequestBytes, b.operation ≠ 3 → (b.inError = false ↔ b.check = b.expected)) ∧
    (∀ r : Reply, r.bytes[5]? = some ((r.bytes.take 5).foldl (fun (c v : Byte) =>
      [v[7], v[6], v[5], v[4], v[3], v[2], v[1], v[0]].foldl
        (fun (r : Byte) (bit : Bool) => if r[7] = bit then r <<< 1 else (r <<< 1) ^^^ 0x07#8) c) 0#8)) ∧
    checkByte [0x31, 0x32, 0x33, 0x34, 0x35, 0x36, 0x37, 0x38, 0x39] = 0xF4

/-- The reply phase, after a request taken and after a frame error answered CHECK: the status code, the data from its most significant
byte, and the check byte of those five, each byte most significant bit first; after the 104th edge, with no reply held, and with no
such frame on the link, MG-OUT is released (R164, R167). -/
def Obligations.ReplyClockedOut : Prop :=
  ∀ (s : State) (k : Nat),
    (∀ r, s.mg.frame = .taken ∨ s.mg.frame = .errored → s.mg.reply = some r → ∀ (i : Fin 6) (j : Fin 8), k = 8 * i.val + j.val →
      let body := [r.status.code, r.data.extractLsb' 24 8, r.data.extractLsb' 16 8, r.data.extractLsb' 8 8,
        r.data.extractLsb' 0 8]
      mgOut s k = some (((body ++ [checkByte body])[i.val]?.getD 0).getLsbD (7 - j.val))) ∧
    (48 ≤ k → mgOut s k = none) ∧ (s.mg.reply = none → mgOut s k = none) ∧
    (s.mg.frame = .none ∨ s.mg.frame = .abandoned → mgOut s k = none)

/-- FRAME_END: a frame taken or found good at its 56th edge that ends after 56 or 104 edges leaves only the port waiting; one of
another length latches LINK; a frame in error has latched it already; an abandoned frame, one without a whole header and one for
another bridge latch nothing; a unicast frame for the bridge of which no command has told before it ends latches LINK where its
length or its bytes are wrong, one that ends short of its 56th edge among them, and otherwise latches nothing (R162, R164).
FRAME_END of a broadcast: with 56 edges and no frame error SAFE and RESET are given to their own rules and anything else latches
LINK; with a frame error it is discarded and LINK latches (R164, R165). -/
def Obligations.FrameEndResult : Prop :=
  (∀ (f : Frame) (straps : BitVec 3) (s : State), s.lines.resetHeld = false →
     let closed := s.setMg { s.mg with frame := .none, reply := none }
     (s.mg.frame = .abandoned ∨ s.mg.frame = .errored → exec (.frameEnd f straps) s = .next closed) ∧
     (s.mg.frame = .taken → f.edges = 56 ∨ f.edges = 104 → exec (.frameEnd f straps) s = .next closed) ∧
     (s.mg.frame = .taken → f.edges ≠ 56 → f.edges ≠ 104 →
       exec (.frameEnd f straps) s = .next (closeFrame (latch .link s))) ∧
     (s.mg.frame = .none → f.edges < 8 → exec (.frameEnd f straps) s = .next closed) ∧
     (s.mg.frame = .none → f.bytes.target ≠ 7 → f.bytes.target ≠ s.identity ∨ s.identity = 7 →
       exec (.frameEnd f straps) s = .next closed) ∧
     (s.mg.frame = .none → 8 ≤ f.edges → f.bytes.target = s.identity → s.identity ≠ 7 →
       (f.edges ≠ 56 ∧ f.edges ≠ 104 ∨ f.bytes.check ≠ f.bytes.expected ∨ f.bytes.operation = 3 →
         exec (.frameEnd f straps) s = .next (closeFrame (latch .link s))) ∧
       (f.edges = 56 ∨ f.edges = 104 → f.bytes.check = f.bytes.expected → f.bytes.operation ≠ 3 →
         exec (.frameEnd f straps) s = .next closed))) ∧
  (∀ (f : Frame) (straps : BitVec 3) (s : State), s.lines.resetHeld = false → s.mg.frame = .none → 8 ≤ f.edges →
     f.bytes.target = 7 →
     (f.edges = 56 → f.bytes.check = f.bytes.expected → f.bytes.operation = 2 → f.bytes.number = 0x04 →
       exec (.frameEnd f straps) s = exec (.safe .broadcast f.bytes.value) s) ∧
     (f.edges = 56 → f.bytes.check = f.bytes.expected → f.bytes.operation = 2 → f.bytes.number = 0x0A →
       exec (.frameEnd f straps) s = exec (.reset .broadcast f.bytes.value straps) s) ∧
     (f.edges ≠ 56 ∨ f.bytes.check ≠ f.bytes.expected ∨ f.bytes.operation ≠ 2 ∨
         (f.bytes.number ≠ 0x04 ∧ f.bytes.number ≠ 0x0A) →
       exec (.frameEnd f straps) s = .next (closeFrame (latch .link s))))

/-- FRAME_ERROR: a unicast frame for the bridge with a check mismatch or operation code 11 is not acted on, is answered CHECK with
zero data, and LINK latches; a broadcast latches LINK and is not answered; a frame for another bridge, or one without an error,
is no event of this kind (R162, R164; log 12 for the moment of a broadcast's). UNKNOWN_REQUEST: a read or write of an undefined
item number and a command of an undefined code are answered UNKNOWN with zero data, also while a command is in flight, and
change nothing else (R166 steps 1 and 3). -/
def Obligations.BadRequestsAnswered : Prop :=
  (∀ (b : RequestBytes) (s : State), s.lines.resetHeld = false → s.mg.frame ≠ .abandoned →
     (b.check ≠ b.expected ∨ b.operation = 3 →
       (b.target = s.identity → s.identity ≠ 7 →
         exec (.frameError b) s = .next (latch .link (s.setMg { s.mg with frame := .errored, reply := some ⟨.check, 0⟩ }))) ∧
       (b.target = 7 → exec (.frameError b) s = .next (latch .link (s.setMg { s.mg with frame := .errored, reply := none }))) ∧
       (b.target ≠ 7 → b.target ≠ s.identity → exec (.frameError b) s = .next s)) ∧
     (b.check = b.expected → b.operation ≠ 3 → exec (.frameError b) s = .next s)) ∧
  (∀ (op : Operation) (number : Byte) (data : Word) (s : State), Listening s →
     ((op = .readItem ∨ op = .writeItem) → Item.ofNumber number = none →
       exec (.unknownRequest op number data) s = .next (s.setMg (s.mg.replied .unknown 0))) ∧
     (∀ straps, op = .command straps → number.toNat = 0 ∨ 11 < number.toNat →
       exec (.unknownRequest op number data) s = .next (s.setMg (s.mg.replied .unknown 0))))

/-- The values of the items as a read carries them, position by position, and the codes in them: Tables 11-7 to 11-10, with the device
code, the design level and the identity of IDENT (R175). Positions that the tables do not name read as zero. The item of each number
of Table 11-4, and none at any other number (R166 step 1). -/
def Obligations.ItemsLaidOut : Prop :=
  (∀ s : State,
     (let v := itemValue s .ident
      v.extractLsb' 16 16 = 0x1620#16 ∧ v.extractLsb' 8 8 = 1#8 ∧ v.extractLsb' 3 5 = 0#5 ∧ v.extractLsb' 0 3 = s.identity) ∧
     (let v := itemValue s .state
      v.extractLsb' 0 3 = (match s.ctl.mode with | .idle => 0#3 | .armed => 1#3 | .run => 2#3 | .ending => 3#3 | .safe => 4#3) ∧
        v.getLsbD 3 = s.ctl.stopPending ∧ v.getLsbD 4 = s.sampler.done ∧ v.getLsbD 5 = s.fill.active ∧
        v.getLsbD 6 = s.reissue.resuming ∧ v.getLsbD 7 = s.mg.command.isSome ∧ v.getLsbD 8 = s.mg.done ∧
        v.getLsbD 9 = s.mg.collision ∧ v.extractLsb' 10 22 = 0#22) ∧
     (let v := itemValue s .lastResult
      v.extractLsb' 0 4 = s.mg.lastResult.result.code ∧ v.extractLsb' 4 4 = 0#4 ∧ v.extractLsb' 8 8 = s.mg.lastResult.code ∧
        v.extractLsb' 16 8 = s.mg.lastResult.argument ∧ v.extractLsb' 24 8 = 0#8) ∧
     (let v := itemValue s .causes
      (∀ c, v.getLsbD c.num = s.causes.flag c) ∧ v.extractLsb' 10 22 = 0#22) ∧
     (let v := itemValue s .actions
      (∀ c, v.getLsbD c.num = s.causes.actionSafe c) ∧ v.extractLsb' 10 22 = 0#22) ∧
     (let v := itemValue s .conditions
      v.getLsbD 0 = s.lines.fltIn ∧ v.getLsbD 1 = stageLowCondition s ∧ v.getLsbD 2 = s.lines.alrIn ∧ v.getLsbD 3 = fltOut s ∧
        v.getLsbD 4 = alrOut s ∧ v.extractLsb' 5 27 = 0#27) ∧
     (itemValue s .leadCause).toNat = (match s.causes.leadCause with | some c => c.num | none => 15) ∧
     (∀ k c, s.causes.priority[k]? = some c →
       (k < 8 → ((itemValue s .priorityA).extractLsb' (4 * k) 4).toNat = c.num) ∧
       (8 ≤ k → k < 10 → ((itemValue s .priorityB).extractLsb' (4 * (k - 8)) 4).toNat = c.num)) ∧
     (itemValue s .priorityB).extractLsb' 8 24 = 0#24 ∧
     (itemValue s .quietMark).toNat = s.causes.quietMark.val ∧
     (∀ c, (itemValue s (.qualify c)).toNat = (s.causes.level c).time.toNat) ∧
     (let v := itemValue s .force
      v.getLsbD 0 = s.causes.forceFault ∧ v.getLsbD 1 = s.causes.forceAlert ∧ v.extractLsb' 2 30 = 0#30) ∧
     (∀ m, m = (itemValue s .markAddress, s.mark) ∨ m = (itemValue s .markerAddress, s.marker) →
       m.1.extractLsb' 0 22 = m.2.addr ∧ m.1.extractLsb' 22 9 = 0#9 ∧ m.1.getLsbD 31 = m.2.enabled)) ∧
  (∀ s : State,
     (itemValue s .watchdogPeriod).toNat = s.timing.wdPeriod.toNat ∧ (itemValue s .cycleNumber).toNat = s.ctl.number.toNat ∧
     (itemValue s .lastPeriod).toNat = s.timing.last.toNat ∧ (itemValue s .longestPeriod).toNat = s.timing.longest.toNat ∧
     (let v := itemValue s .capture
      v.extractLsb' 0 24 = s.timing.capture ∧ v.getLsbD 24 = s.timing.captured ∧ v.getLsbD 25 = s.timing.captureOverrun ∧
        v.extractLsb' 26 6 = 0#6) ∧
     (itemValue s .prescale).toNat = s.timing.prescale.toNat ∧
     (let v := itemValue s .poolLevels
      v.extractLsb' 0 9 = BitVec.ofNat 9 (openCount s) ∧ v.extractLsb' 9 7 = 0#7 ∧
        v.extractLsb' 16 9 = BitVec.ofNat 9 (queuedCount s) ∧ v.extractLsb' 25 3 = 0#3 ∧
        v.extractLsb' 28 3 = BitVec.ofNat 3 s.release.queue.length ∧ v.getLsbD 31 = false) ∧
     (itemValue s .stageLowThreshold).toNat = s.pool.threshold.toNat ∧
     (let v := itemValue s .freezeTimer
      v.extractLsb' 0 8 = s.freeze.setting ∧ v.getLsbD 8 = decide (s.freeze.range = .minutes) ∧ v.extractLsb' 9 6 = 0#6 ∧
        v.getLsbD 15 = s.freeze.running ∧ v.extractLsb' 16 8 = s.freeze.remaining ∧ v.extractLsb' 24 8 = 0#8) ∧
     (∀ k, (itemValue s .frozenSet).getLsbD k = decide (∃ n : WinIdx, n.val = k ∧
       ((s.win[n]).freeze = .frozen ∨ (s.win[n]).freeze = .thawPending))) ∧
     (itemValue s .resumePolicy).toNat = (match s.reissue.policy with | .fresh => 0 | .reissue => 1) ∧
     (itemValue s .lock).toNat = s.mg.locked.toNat ∧ (itemValue s .imagePointer).toNat = s.pointer.toNat ∧
     (∀ k : Fin 4, lane k.val (itemValue s .imageData) = s.image.byte (4 * s.pointer.toNat + k.val)) ∧
     (let v := itemValue s .imageMarks
      let m := s.image.marksAt s.pointer.toNat
      v.extractLsb' 0 4 = m.valid ∧ v.extractLsb' 4 4 = m.owed ∧ v.getLsbD 8 = m.held ∧ v.getLsbD 9 = m.fresh ∧
        v.extractLsb' 10 22 = 0#22) ∧
     ∀ n : WinIdx,
       let w := s.win[n]
       let a := itemValue s (.window n .a)
       let b := itemValue s (.window n .b)
       a.extractLsb' 0 22 = w.descriptor.base ∧ a.extractLsb' 22 2 = 0#2 ∧ a.getLsbD 24 = decide (w.descriptor.kind = .output) ∧
         a.extractLsb' 25 2 = (match w.descriptor.policy with | .hold => 0#2 | .zero => 1#2 | .pattern => 2#2) ∧
         a.extractLsb' 27 5 = 0#5 ∧
         b.extractLsb' 0 9 = w.descriptor.length ∧ b.getLsbD 9 = w.defined ∧ b.extractLsb' 10 10 = w.descriptor.imageBase ∧
         b.extractLsb' 20 10 = w.descriptor.safeBase ∧
         b.extractLsb' 30 2 =
           (match w.freeze with | .opened => 0#2 | .freezePending => 1#2 | .frozen => 2#2 | .thawPending => 3#2)) ∧
  (let numbers := [(0x00#8, Item.ident), (0x01#8, .state), (0x02#8, .lastResult), (0x08#8, .causes), (0x09#8, .conditions),
       (0x0A#8, .leadCause), (0x0B#8, .actions), (0x0C#8, .priorityA), (0x0D#8, .priorityB), (0x0E#8, .quietMark),
       (0x0F#8, .qualify .chain), (0x10#8, .qualify .stageLow), (0x11#8, .force), (0x18#8, .markAddress),
       (0x19#8, .markerAddress)] ++
      [(0x20#8, Item.watchdogPeriod), (0x21#8, .cycleNumber), (0x22#8, .lastPeriod), (0x23#8, .longestPeriod), (0x24#8, .capture),
       (0x25#8, .prescale), (0x28#8, .poolLevels), (0x29#8, .stageLowThreshold), (0x30#8, .freezeTimer), (0x31#8, .frozenSet),
       (0x38#8, .resumePolicy), (0x39#8, .lock), (0x40#8, .imagePointer), (0x41#8, .imageData), (0x42#8, .imageMarks)]
   (∀ e ∈ numbers, Item.ofNumber e.1 = some e.2) ∧
   (∀ n : WinIdx, Item.ofNumber (BitVec.ofNat 8 (0x80 + 2 * n.val)) = some (.window n .a) ∧
     Item.ofNumber (BitVec.ofNat 8 (0x81 + 2 * n.val)) = some (.window n .b)) ∧
   ∀ x : Byte, x ∉ numbers.map (·.1) → x.toNat < 0x80 ∨ 0x9F < x.toNat → Item.ofNumber x = none) ∧
  [Status.ack, .accepted, .busy, .refused, .unknown, .check].map Status.code = [1, 2, 3, 4, 5, 6] ∧
  [Reason.none, .mode, .locked, .argument, .range, .overlap, .slice, .mark, .ok, .abandoned, .pending].map Reason.code =
    [0, 1, 2, 3, 4, 5, 6, 7, 8, 9, 10]

/-- Reads: every item is answered ACK with its value as it stood. STATE clears DONE and COLLISION, CAPTURE clears CAPTURED and
CAPTURE OVERRUN, IMAGE DATA advances the image pointer, and every other read changes nothing; each in every mode, locked or not,
and while a command is in flight (R166 step 2, R168; the items with no row of their own by log 11). -/
def Obligations.ReadsAnswered : Prop :=
  ∀ s : State, Listening s →
    exec .stateRead s =
      .next (s.setMg ({ s.mg with done := false, collision := false }.replied .ack (itemValue s .state))) ∧
    exec .captureRead s =
      .next ((s.setTiming { s.timing with captured := false, captureOverrun := false }).setMg
        (s.mg.replied .ack (itemValue s .capture))) ∧
    exec .imageDataRead s =
      .next ((s.setPointer (s.pointer + 1)).setMg (s.mg.replied .ack (s.image.word s.pointer.toNat))) ∧
    ∀ (number : Byte) (data : Word) (it : Item), Item.ofNumber number = some it →
      (it ≠ .state → it ≠ .capture → it ≠ .imageData →
        exec (.unknownRequest .readItem number data) s = .next (s.setMg (s.mg.replied .ack (itemValue s it)))) ∧
      (it = .state → exec (.unknownRequest .readItem number data) s = exec .stateRead s) ∧
      (it = .capture → exec (.unknownRequest .readItem number data) s = exec .captureRead s) ∧
      (it = .imageData → exec (.unknownRequest .readItem number data) s = exec .imageDataRead s)

/-- UNLOCK: an argument equal to the lock code unlocks the bridge and clears the code, another is refused, and an unlocked bridge
answers ACK to any; while a command is in flight it is BUSY, as a broadcast it is not taken, and a RESET command unlocks (R172). -/
def Obligations.UnlockResult : Prop :=
  ∀ (argument : Word) (s : State),
    (Listening s → s.mg.command ≠ none →
      exec (.unlock argument) s = .next (s.setMg ({ s.mg with collision := true }.replied .busy 0))) ∧
    (Attending s → s.mg.locked = true → argument = s.mg.lockCode →
      exec (.unlock argument) s = .next (s.setMg ({ s.mg with locked := false, lockCode := 0 }.replied .ack 0))) ∧
    (Attending s → s.mg.locked = true → argument ≠ s.mg.lockCode →
      exec (.unlock argument) s = .next (s.setMg (s.mg.refused .locked))) ∧
    (Attending s → s.mg.locked = false → exec (.unlock argument) s = .next (s.setMg (s.mg.replied .ack 0))) ∧
    (∀ (f : Frame) (straps : BitVec 3), s.lines.resetHeld = false → s.mg.frame = .none → f.edges = 56 →
      f.bytes.target = 7 → f.bytes.check = f.bytes.expected → f.bytes.operation = 2 → f.bytes.number = 0x09 →
      exec (.frameEnd f straps) s = .next (closeFrame (latch .link s))) ∧
    (∀ straps : BitVec 3, Listening s → ∃ t, exec (.reset .unicast 0x96 straps) s = .next t ∧ t.mg.locked = false ∧
      t.win = State.reset.win ∧ t.timing = Timing.reset ∧ t.causes = CauseUnit.reset ∧ t.mark = State.reset.mark ∧
      t.marker = State.reset.marker ∧ t.pool = State.reset.pool ∧ t.freeze = State.reset.freeze ∧
      t.reissue.policy = State.reset.reissue.policy ∧ t.pointer = State.reset.pointer)

/-! ## Commands (01, 02, 07, 09, 10) -/

/-- START: the tests in their order, and taken with the mode ARMED, the cycle number 0, FIRST, TORN and stop-pending clear, the
marks of every image slice clear and timing restarted; a waiting access is routed anew; its argument is ignored and the lock
does not refuse it; BUSY while a command is in flight, and not taken from a broadcast (R18, R19, R15). -/
def Obligations.StartResult : Prop :=
  ∀ (argument : Word) (s : State),
    (Listening s → s.mg.command ≠ none →
      exec (.start argument) s = .next (s.setMg ({ s.mg with collision := true }.replied .busy 0))) ∧
    (∀ (f : Frame) (straps : BitVec 3), s.lines.resetHeld = false → s.mg.frame = .none → f.edges = 56 →
      f.bytes.target = 7 → f.bytes.check = f.bytes.expected → f.bytes.operation = 2 → f.bytes.number = 0x01 →
      exec (.frameEnd f straps) s = .next (closeFrame (latch .link s))) ∧
    (Attending s →
      (s.ctl.mode ≠ .idle → exec (.start argument) s = .next (s.setMg (s.mg.refused .mode))) ∧
      (s.ctl.mode = .idle → (∀ n : WinIdx, (s.win[n]).defined = false) →
        exec (.start argument) s = .next (s.setMg (s.mg.refused .argument))) ∧
      (s.ctl.mode = .idle → (∃ n : WinIdx, (s.win[n]).defined = true) → s.timing.wdPeriod = 0 →
        exec (.start argument) s = .next (s.setMg (s.mg.refused .range))) ∧
      (s.ctl.mode = .idle → (∃ n : WinIdx, (s.win[n]).defined = true) → s.timing.wdPeriod ≠ 0 → s.mark.enabled = false →
        exec (.start argument) s = .next (s.setMg (s.mg.refused .mark))) ∧
      (s.ctl.mode = .idle → (∃ n : WinIdx, (s.win[n]).defined = true) → s.timing.wdPeriod ≠ 0 → s.mark.enabled = true →
        let armed := ((s.setCtl ⟨.armed, 0, false, false, false⟩).setImage
          (s.image.clearMarks fun w => allWin.any fun n => (s.win[n]).defined && (s.win[n]).record.inImage w)).setTiming
            { s.timing with count := 0, running := true, wdLimit := 10 * s.timing.wdPeriod.toNat, wdState := .running }
        exec (.start argument) s = .next (ackReply (reroute s armed)) ∧
          (s.cp = .idle → exec (.start argument) s = .next (armed.setMg (s.mg.replied .ack 0)))))

/-- STOP: in IDLE and ENDING ACK alone; in ARMED the mode is IDLE at once; in RUN stop-pending is set; with a window not OPEN it is
refused; in SAFE it is BUSY during a safe fill, refused with a FROZEN window, and otherwise makes the mode IDLE; where the mode
changes a waiting access is routed anew (R26, R27, R151, R15). -/
def Obligations.StopResult : Prop :=
  ∀ (argument : Word) (s : State), Attending s →
    let acked := s.setMg (s.mg.replied .ack 0)
    let refused := s.setMg (s.mg.refused .mode)
    let allOpen := ∀ n : WinIdx, (s.win[n]).freeze = .opened
    (s.ctl.mode = .idle ∨ s.ctl.mode = .ending → exec (.stop argument) s = .next acked) ∧
    (s.ctl.mode = .run → s.ctl.stopPending = true → exec (.stop argument) s = .next acked) ∧
    (s.ctl.mode = .run → s.ctl.stopPending = false → allOpen →
      exec (.stop argument) s = .next (acked.setCtl { s.ctl with stopPending := true })) ∧
    (s.ctl.mode = .run → s.ctl.stopPending = false → ¬allOpen → exec (.stop argument) s = .next refused) ∧
    (s.ctl.mode = .armed → ¬allOpen → exec (.stop argument) s = .next refused) ∧
    (s.ctl.mode = .armed → allOpen →
      let t := ((s.setCtl { s.ctl with mode := .idle }).setTiming
        { s.timing with running := false, wdState := .stopped }).setFreeze { s.freeze with firstFlush := [] }
      exec (.stop argument) s = .next (ackReply (reroute s t)) ∧
        (s.cp = .idle → exec (.stop argument) s = .next (t.setMg (s.mg.replied .ack 0)))) ∧
    (s.ctl.mode = .safe → s.fill.active = true → exec (.stop argument) s = .next (s.setMg (s.mg.replied .busy 0))) ∧
    (s.ctl.mode = .safe → s.fill.active = false → (∃ n : WinIdx, (s.win[n]).freeze = .frozen) →
      exec (.stop argument) s = .next refused) ∧
    (s.ctl.mode = .safe → s.fill.active = false → (∀ n : WinIdx, (s.win[n]).freeze ≠ .frozen) →
      let t := s.setCtl { s.ctl with mode := .idle }
      exec (.stop argument) s = .next (ackReply (reroute s t)) ∧
        (s.cp = .idle → exec (.stop argument) s = .next (acked.setCtl { s.ctl with mode := .idle })))

/-- RESUME: the tests in their order; under FRESH the bridge is ARMED when the reply is formed, with the OPEN OUTPUT windows that
owe a byte in the first-flush set, and a waiting access is routed anew; under REISSUE it stays in SAFE, resuming, with the command
in flight, and the reissue begins at the first window (R144 to R146, R169, R15). Where the reissue goes from a place: undefined and
INPUT windows are passed over, a FROZEN OUTPUT window owes every valid byte and is passed, an OPEN one is taken at its next word
with a valid lane, and past the last window come the marker, where it is enabled, and the completion (R146 to R148). -/
def Obligations.ResumeResult : Prop :=
  (∀ (n : WinIdx) (off : Nat) (s : State),
     (s.image.wf → ReissueComesTo s n off (reissueFrom n off s)) ∧
     (s.reissue.phase = .words → s.reissue.position = some (n, off) → reissueOn s = reissueFrom n off s) ∧
     (s.reissue.phase ≠ .words ∨ s.reissue.position = none → reissueOn s = s)) ∧
  ∀ (argument : Word) (s : State), Attending s →
    let refused := s.setMg (s.mg.refused .mode)
    let clear := ∀ c, s.causes.flag c = true → s.causes.actionSafe c = false
    (s.ctl.mode ≠ .safe → exec (.resume argument) s = .next refused) ∧
    (s.ctl.mode = .safe → s.fill.active = true → exec (.resume argument) s = .next (s.setMg (s.mg.replied .busy 0))) ∧
    (s.ctl.mode = .safe → s.fill.active = false → ¬clear → exec (.resume argument) s = .next refused) ∧
    (s.ctl.mode = .safe → s.fill.active = false → s.lines.fltIn = true → exec (.resume argument) s = .next refused) ∧
    (s.ctl.mode = .safe → s.fill.active = false → clear → s.lines.fltIn = false → s.reissue.policy = .fresh →
      let t := ((s.setCtl { s.ctl with mode := .armed, first := false, torn := false }).setTiming
        { s.timing with count := 0, running := true, wdLimit := 10 * s.timing.wdPeriod.toNat, wdState := .running }).setFreeze
        { s.freeze with firstFlush := joinWin s.freeze.firstFlush (owedOpenOutputs s.win s.image) }
      exec (.resume argument) s = .next (ackReply (reroute s t)) ∧
        (s.cp = .idle → exec (.resume argument) s = .next (t.setMg (s.mg.replied .ack 0)))) ∧
    (s.ctl.mode = .safe → s.fill.active = false → clear → s.lines.fltIn = false → s.reissue.policy = .reissue →
      let mg := { s.mg with command := some .reissue, done := false, lastResult := ⟨.pending, 0x03, 0⟩ }.replied .accepted 0
      let begun := (s.setReissue { s.reissue with resuming := true, phase := .words }).setMg mg
      ∃ t, exec (.resume argument) s = .next t ∧ t.mg = mg ∧ t.reissue.resuming = true ∧
        t = ((s.setReissue t.reissue).setImage t.image).setMg t.mg ∧ (∀ a, t.image.byte a = s.image.byte a) ∧
        (s.image.wf → ReissueComesTo begun 0 0 t))

/-- SAFE: refused in IDLE, without effect in SAFE, and in ARMED, RUN and ENDING the entry to SAFE; a broadcast does the same without a
reply (R31, R152, R165). What the entry to SAFE leaves in each block, as Table 9-1 has it: the cycle controller, timing, the pool
and the queue, the sampler, freeze control with its timer, the safe fill; the access in flight goes on, an entry's as one whose
record is dropped, a batch marker's as one that retires nothing, a walk read as one that makes nothing FRESH; an access that waits
is routed anew under SAFE, and any other stays; in the cause unit INPUT WRITE alone can latch by that routing, and the stage-low
cause follows its condition; the previous background grant, the image, the lines and the settings are kept (R15, R42, R55, R86,
R102, R114, R117, R122, R123, R137, R139, R154). That INPUT WRITE does not latch
again for an access that has had that effect is the model's choice (log 9), and so is the zero that is read where the window of
its class has lost the address (log 30). -/
def Obligations.SafeResult : Prop :=
  (∀ (argument : Word) (s : State),
     (Attending s → s.ctl.mode = .idle → exec (.safe .unicast argument) s = .next (s.setMg (s.mg.refused .mode))) ∧
     (Attending s → s.ctl.mode = .safe → exec (.safe .unicast argument) s = .next (s.setMg (s.mg.replied .ack 0))) ∧
     (Attending s → (s.ctl.mode = .armed ∨ s.ctl.mode = .run ∨ s.ctl.mode = .ending) →
       exec (.safe .unicast argument) s = .next (ackReply (enterSafe s))) ∧
     (s.lines.resetHeld = false → s.mg.frame ≠ .abandoned →
       let closed := s.setMg { s.mg with frame := .none, reply := none }
       ((s.ctl.mode = .idle ∨ s.ctl.mode = .safe) → exec (.safe .broadcast argument) s = .next closed) ∧
       ((s.ctl.mode = .armed ∨ s.ctl.mode = .run ∨ s.ctl.mode = .ending) →
         exec (.safe .broadcast argument) s = .next (enterSafe closed)))) ∧
  (∀ s : State,
     let t := enterSafe s
     t.ctl = { s.ctl with mode := .safe, stopPending := false, first := false, torn := false } ∧
     t.timing = { s.timing with running := false, wdState := .stopped } ∧
     t.pool = { s.pool with openStage := [] } ∧ t.release.queue = [] ∧
     t.sampler = { state := .stopped, position := none, walkSet := [], done := false } ∧
     (∀ n : WinIdx, t.win[n] = { s.win[n] with freeze := match (s.win[n]).freeze with
       | .freezePending => .frozen
       | .thawPending => .opened
       | f => f }) ∧
     t.freeze.firstFlush = [] ∧ TimerFollows s.freeze t.freeze (frozenSet s.win) (frozenSet t.win) ∧
     t.fill.active = true ∧ t.fill.offset = 0 ∧
     t.fill.phase = (if t.fill.list ≠ [] then .words else if s.marker.enabled = true then .marker else .due) ∧
     t.fill.list = (allWin.filter fun n => (t.win[n]).isOutput && decide ((t.win[n]).record.policy ≠ .hold) &&
       decide ((t.win[n]).freeze = .opened)) ∧
     SettingsKept s t ∧ t.background = s.background ∧ t.image = s.image ∧ t.reissue = s.reissue ∧ t.mg = s.mg ∧
     t.mp = (s.mp.map fun p => { p with owner := match p.owner with
       | .entry n .queued => .entry n .dropped
       | .batchMarker _ => .batchMarker false
       | .walkRead n _ => .walkRead n true
       | o => o }) ∧
     ((∀ o, s.cp = .outstanding o → o.wait.movable = false) → t.cp = s.cp) ∧
     (∀ o, s.cp = .outstanding o → o.wait.movable = true →
       let value := fun n : WinIdx => match imageWord s.win .input n o.access.addr with
         | some w => if (s.image.marksAt w).held = true then s.image.word w else 0
         | none => 0
       match o.cls, o.access.write with
       | .plain, _ | .mark, _ => t.cp = .outstanding { o with wait := .service .pass }
       | .input n, false => t.cp = .ended true false (value n)
       | .input _, true | .output _, true => t.cp = .ended true false 0
       | .output n, false =>
         let found := gather t n o.access.addr
         t.cp = if (t.win[n]).freeze = .frozen ∨ found.2 = 0 then .ended true false found.1
           else .outstanding { o with wait := .service .merged }) ∧
     (t.causes.flag .inputWrite = true ↔ s.causes.flag .inputWrite = true ∨ ∃ o n, s.cp = .outstanding o ∧ o.wait.movable = true ∧
       o.cls = .input n ∧ o.access.write = true ∧ o.access.enables ≠ 0 ∧ o.effectTaken = false) ∧
     (∀ c, c ≠ .inputWrite → c ≠ .stageLow → t.causes.flag c = s.causes.flag c) ∧
     (stageLowCondition t = true → t.causes.stageLow = s.causes.stageLow ∧ t.causes.flag .stageLow = s.causes.flag .stageLow) ∧
     (stageLowCondition t = false → t.causes.stageLow = { s.causes.stageLow with timer := 0 } ∧
       t.causes.flag .stageLow = (s.causes.flag .stageLow && decide (s.causes.stageLow.time ≠ 0))) ∧
     t.causes = { s.causes with flags := t.causes.flags, stageLow := t.causes.stageLow })

/-- FREEZE n: the tests in their order, and taken with the freeze state Table 7-2 gives by mode; the timer follows the frozen set,
and a window frozen in ARMED leaves the first-flush set (R107, R108, R110, R111, R117). THAW n: the tests in their order, and taken
with the freeze state Table 7-2 gives by mode; a FROZEN window joins the first-flush set in ARMED and, by its policy, the fill
list in SAFE (R107, R109, R110, R111, R117, R140). After each a waiting access of the window is routed anew (R15). -/
def Obligations.FreezeAndThawResult : Prop :=
  (∀ (argument : Word) (s : State), Attending s →
     let refused := fun r => s.setMg (s.mg.refused r)
     (15 < argument.toNat → exec (.freeze argument) s = .next (refused .argument)) ∧
     ∀ n : WinIdx, argument.toNat = n.val →
       (s.ctl.mode = .idle ∨ s.ctl.mode = .ending ∨ s.ctl.stopPending = true →
         exec (.freeze argument) s = .next (refused .mode)) ∧
       (s.ctl.mode ≠ .idle → s.ctl.mode ≠ .ending → s.ctl.stopPending = false →
         ((s.win[n]).defined = false → exec (.freeze argument) s = .next (refused .argument)) ∧
         ((s.win[n]).defined = true → s.freeze.setting = 0 → exec (.freeze argument) s = .next (refused .range)) ∧
         ((s.win[n]).defined = true → s.freeze.setting ≠ 0 →
           ∃ t, exec (.freeze argument) s = .next (ackReply (reroute s t)) ∧
             (s.cp = .idle → exec (.freeze argument) s = .next (t.setMg (s.mg.replied .ack 0))) ∧
             (t.win[n]).freeze = (match s.ctl.mode, (s.win[n]).freeze with
               | .run, .opened => .freezePending
               | .run, .thawPending => .frozen
               | .armed, .opened => .frozen
               | .safe, .opened => .frozen
               | _, f => f) ∧
             (∀ m : WinIdx, t.win[m] = { s.win[m] with freeze := if m = n then (t.win[n]).freeze else (s.win[m]).freeze }) ∧
             t.freeze.firstFlush = (if s.ctl.mode = .armed ∧ (s.win[n]).freeze = .opened then
               s.freeze.firstFlush.filter (fun m => decide (m ≠ n)) else s.freeze.firstFlush) ∧
             TimerFollows s.freeze t.freeze (frozenSet s.win) (frozenSet t.win) ∧
             t = (s.setWin t.win).setFreeze t.freeze))) ∧
  (∀ (argument : Word) (s : State), Attending s →
     let refused := fun r => s.setMg (s.mg.refused r)
     (15 < argument.toNat → exec (.thaw argument) s = .next (refused .argument)) ∧
     ∀ n : WinIdx, argument.toNat = n.val →
       (s.ctl.mode = .idle ∨ s.ctl.mode = .ending ∨ s.ctl.stopPending = true →
         exec (.thaw argument) s = .next (refused .mode)) ∧
       (s.ctl.mode ≠ .idle → s.ctl.mode ≠ .ending → s.ctl.stopPending = false →
         ((s.win[n]).defined = false → exec (.thaw argument) s = .next (refused .argument)) ∧
         ((s.win[n]).defined = true →
           ∃ t, exec (.thaw argument) s = .next (ackReply (reroute s t)) ∧
             (s.cp = .idle → exec (.thaw argument) s = .next (t.setMg (s.mg.replied .ack 0))) ∧
             (t.win[n]).freeze = (match s.ctl.mode, (s.win[n]).freeze with
               | .run, .freezePending => .opened
               | .run, .frozen => .thawPending
               | .armed, .frozen => .opened
               | .safe, .frozen => .opened
               | _, f => f) ∧
             (∀ m : WinIdx, t.win[m] = { s.win[m] with freeze := if m = n then (t.win[n]).freeze else (s.win[m]).freeze }) ∧
             t.freeze.firstFlush = (if s.ctl.mode = .armed ∧ (s.win[n]).freeze = .frozen then
               joinWin s.freeze.firstFlush [n] else s.freeze.firstFlush) ∧
             TimerFollows s.freeze t.freeze (frozenSet s.win) (frozenSet t.win) ∧
             (s.ctl.mode = .safe → (s.win[n]).freeze = .frozen → isFilled s.win[n] = true →
               t.fill.active = true ∧ t.fill.list = s.fill.list.filter (fun m => decide (m ≠ n)) ++ [n] ∧ HandedOver [n] s t) ∧
             (s.ctl.mode ≠ .safe ∨ (s.win[n]).freeze ≠ .frozen ∨ isFilled s.win[n] = false →
               t = (s.setWin t.win).setFreeze t.freeze) ∧
             t = (((s.setWin t.win).setFreeze t.freeze).setFill t.fill).setMp t.mp ∧
             ((t.mp.map fun p => (p.addr, p.write, p.enables, p.data)) = s.mp.map fun p => (p.addr, p.write, p.enables, p.data)))))

/-- COMMIT WINDOW n and DROP WINDOW n: the tests in their order; taken, the command is in flight with LAST RESULT PENDING and DONE
clear (R6, R9, R169). DROP_WINDOW_COMPLETE: a defined window is undefined and OPEN, and the marks of its image slice are clear;
an undefined one stays as it is; the result is OK (R9). -/
def Obligations.DropWindowResult : Prop :=
  (∀ (argument : Word) (s : State), Attending s →
     let both := fun t => exec (.commitWindow argument) s = .next t ∧ exec (.dropWindow argument) s = .next t
     (15 < argument.toNat → both (s.setMg (s.mg.refused .argument))) ∧
     ∀ n : WinIdx, argument.toNat = n.val →
       (s.ctl.mode ≠ .idle → both (s.setMg (s.mg.refused .mode))) ∧
       (s.ctl.mode = .idle → s.mg.locked = true → both (s.setMg (s.mg.refused .locked))) ∧
       (s.ctl.mode = .idle → s.mg.locked = false →
         exec (.commitWindow argument) s = .next (s.setMg ({ s.mg with
           command := some (.commitWindow n), done := false, lastResult := ⟨.pending, 0x07, BitVec.ofNat 8 n.val⟩ }.replied .accepted 0)) ∧
         exec (.dropWindow argument) s = .next (s.setMg ({ s.mg with
           command := some (.dropWindow n), done := false, lastResult := ⟨.pending, 0x08, BitVec.ofNat 8 n.val⟩ }.replied .accepted 0)))) ∧
  (∀ (n : WinIdx) (s : State), s.mg.command = some (.dropWindow n) →
     ∃ t, exec .dropWindowComplete s = .next t ∧
       t.mg = { s.mg with command := none, done := true, lastResult := { s.mg.lastResult with result := .ok } } ∧
       (∀ m : WinIdx, t.win[m] =
         if m = n ∧ (s.win[n]).defined = true then { s.win[n] with defined := false, freeze := .opened } else s.win[m]) ∧
       (s.image.wf → ∀ w, t.image.marksAt w =
         if ((s.win[n]).defined && (s.win[n]).record.inImage w) = true then Marks.clear else s.image.marksAt w) ∧
       (∀ a, t.image.byte a = s.image.byte a) ∧ t = ((s.setWin t.win).setImage t.image).setMg t.mg)

/-- COMMIT_WINDOW_COMPLETE: where every check of Table 1-2 passes the record is the descriptor, the window is defined and the marks
of its former and its new image slice are clear; at the first failing check the descriptor is the record again; the result
stands in LAST RESULT with DONE (R6 to R8). The checks of COMMIT WINDOW in the order of Table 1-2, the first that fails giving
its code (R7). -/
def Obligations.CommitWindowCompletes : Prop :=
  (∀ (n : WinIdx) (s : State), s.mg.command = some (.commitWindow n) →
     let done := fun r => { s.mg with command := none, done := true, lastResult := { s.mg.lastResult with result := r } }
     (commitCheck s n = .ok →
       ∃ t, exec .commitWindowComplete s = .next t ∧ t.mg = done .ok ∧
         (∀ m : WinIdx, t.win[m] = if m = n then
           { descriptor := (s.win[n]).descriptor, record := (s.win[n]).descriptor, defined := true, freeze := .opened } else s.win[m]) ∧
         (s.image.wf → ∀ w, t.image.marksAt w =
           if ((s.win[n]).defined && (s.win[n]).record.inImage w || (s.win[n]).descriptor.inImage w) = true then Marks.clear
           else s.image.marksAt w) ∧
         (∀ a, t.image.byte a = s.image.byte a) ∧ t = ((s.setWin t.win).setImage t.image).setMg t.mg) ∧
     (commitCheck s n ≠ .ok →
       exec .commitWindowComplete s = .next ((s.setWin (s.win.set n { s.win[n] with descriptor := (s.win[n]).record })).setMg
         (done (commitCheck s n))))) ∧
  (∀ (n : WinIdx) (s : State),
     let f := (s.win[n]).descriptor
     let others := fun (p : Fields → Prop) => ∀ m : WinIdx, m ≠ n → (s.win[m]).defined = true → p (s.win[m]).record
     let apart := fun (a la b lb : Nat) => a + la ≤ b ∨ b + lb ≤ a
     let range := 1 ≤ f.length.toNat ∧ f.length.toNat ≤ 256 ∧ f.base.toNat + f.length.toNat ≤ 4194304
     let overlap := others fun g => apart f.base.toNat f.length.toNat g.base.toNat g.length.toNat
     let mark := f.covers s.mark.addr = false ∧ (s.marker.enabled = true → f.covers s.marker.addr = false)
     let slice := fun (g : Fields) (b : Nat) =>
       b = g.imageBase.toNat ∨ (g.kind = .output ∧ g.policy = .pattern ∧ b = g.safeBase.toNat)
     let slices := (∀ b, slice f b → b + f.length.toNat ≤ 1024) ∧
       (f.kind = .output → f.policy = .pattern → apart f.imageBase.toNat f.length.toNat f.safeBase.toNat f.length.toNat) ∧
       others fun g => ∀ b c, slice f b → slice g c → apart b f.length.toNat c g.length.toNat
     (¬range → commitCheck s n = .range) ∧
     (range → ¬overlap → commitCheck s n = .overlap) ∧
     (range → overlap → ¬mark → commitCheck s n = .mark) ∧
     (range → overlap → mark → ¬slices → commitCheck s n = .slice) ∧
     (range → overlap → mark → slices → commitCheck s n = .ok))

/-! ## Writes of the items (01, 03, 04, 07 to 11) -/

/-- Writes that neither the lock nor a value refuses: CAUSES clears the flags whose position is 1, FORCE sets the two force bits,
and CLEAR LONGEST clears LONGEST PERIOD, each answered ACK in every mode (R125, R133, R156). What a clear of causes leaves: an
event cause whose position is 1 is clear and one whose position is 0 as it was; a level cause with a qualifying time above 0 is
clear with its timer at 0, and one with qualifying time 0 stays; nothing else of the cause unit changes (R125, R126). -/
def Obligations.UnlockedWritesTaken : Prop :=
  (∀ (v : Word) (s : State), Attending s →
     exec (.causesWrite v) s = .next ((s.setCauses (s.causes.hostWrite v)).setMg (s.mg.replied .ack 0)) ∧
     exec (.forceWrite v) s =
       .next ((s.setCauses { s.causes with forceFault := v[0], forceAlert := v[1] }).setMg (s.mg.replied .ack 0)) ∧
     exec (.clearLongest v) s = .next ((s.setTiming { s.timing with longest := 0 }).setMg (s.mg.replied .ack 0))) ∧
  (∀ (v : Word) (u : CauseUnit),
     let t := u.hostWrite v
     (∀ c : Cause, c ≠ .chain → c ≠ .stageLow → t.flag c = (u.flag c && !v.getLsbD c.num)) ∧
     (∀ c : LevelCause,
       (v.getLsbD c.cause.num = true → (u.level c).time ≠ 0 →
         t.flag c.cause = false ∧ t.level c = { u.level c with timer := 0 }) ∧
       (v.getLsbD c.cause.num = false ∨ (u.level c).time = 0 → t.flag c.cause = u.flag c.cause ∧ t.level c = u.level c)) ∧
     t = { u with flags := t.flags, chain := t.chain, stageLow := t.stageLow })

/-- WINDOW n A and WINDOW n B: the descriptor takes the fields of that item, the record nothing; refused while locked; in every mode
(R5, R175). MARK ADDRESS and MARKER ADDRESS: refused outside IDLE, while locked, and with MARK where the address lies in a
defined window (the marker's only if it is to be enabled); otherwise address and enable are replaced (R10). -/
def Obligations.WindowItemsWritten : Prop :=
  (∀ (n : WinIdx) (v : Word) (s : State), Attending s →
     let put := fun d => (s.setWin (s.win.set n { s.win[n] with descriptor := d })).setMg (s.mg.replied .ack 0)
     (s.mg.locked = true →
       ∀ part, exec (.windowDescriptorWrite n part v) s = .next (s.setMg (s.mg.refused .locked))) ∧
     (s.mg.locked = false →
       exec (.windowDescriptorWrite n .a v) s = .next (put { (s.win[n]).descriptor with
         base := v.extractLsb' 0 22
         kind := if v[24] then .output else .input
         policy := if v[26] then .pattern else if v[25] then .zero else .hold }) ∧
       exec (.windowDescriptorWrite n .b v) s = .next (put { (s.win[n]).descriptor with
         length := v.extractLsb' 0 9, imageBase := v.extractLsb' 10 10, safeBase := v.extractLsb' 20 10 }))) ∧
  (∀ (v : Word) (s : State), Attending s →
     let m : BusMark := ⟨v.extractLsb' 0 22, v[31]⟩
     let inWindow := ∃ n : WinIdx, (s.win[n]).covers m.addr = true
     let both := fun t => exec (.markAddressWrite v) s = .next t ∧ exec (.markerAddressWrite v) s = .next t
     (s.ctl.mode ≠ .idle → both (s.setMg (s.mg.refused .mode))) ∧
     (s.ctl.mode = .idle → s.mg.locked = true → both (s.setMg (s.mg.refused .locked))) ∧
     (s.ctl.mode = .idle → s.mg.locked = false →
       (inWindow → exec (.markAddressWrite v) s = .next (s.setMg (s.mg.refused .mark))) ∧
       (¬inWindow → exec (.markAddressWrite v) s = .next ((s.setMark m).setMg (s.mg.replied .ack 0))) ∧
       (inWindow → m.enabled = true → exec (.markerAddressWrite v) s = .next (s.setMg (s.mg.refused .mark))) ∧
       (¬inWindow ∨ m.enabled = false →
         exec (.markerAddressWrite v) s = .next ((s.setMarker m).setMg (s.mg.replied .ack 0)))))

/-- PRESCALE, IMAGE POINTER: a value in its range is taken, locked or not, and any other refused with RANGE (R157, R69). FREEZE
TIMER, LOCK and IMAGE DATA: refused while locked; LOCK refuses zero, IMAGE DATA any mode but IDLE; taken, the setting and range,
the lock with its code, and the four lanes at the pointer, which moves on (R116, R171, R71). -/
def Obligations.RangedAndLinkWritesTaken : Prop :=
  (∀ (v : Word) (s : State), Attending s →
     ((∃ k : Fin 8, v.toNat = 2 ^ k.val) → exec (.prescaleWrite v) s =
       .next ((s.setTiming { s.timing with prescale := v.setWidth 8, prescaleCount := 0 }).setMg (s.mg.replied .ack 0))) ∧
     ((¬∃ k : Fin 8, v.toNat = 2 ^ k.val) → exec (.prescaleWrite v) s = .next (s.setMg (s.mg.refused .range))) ∧
     (v.toNat ≤ 1023 →
       exec (.imagePointerWrite v) s = .next ((s.setPointer (v.setWidth 10)).setMg (s.mg.replied .ack 0))) ∧
     (1023 < v.toNat → exec (.imagePointerWrite v) s = .next (s.setMg (s.mg.refused .range)))) ∧
  (∀ (v : Word) (s : State), Attending s →
     let locked := s.setMg (s.mg.refused .locked)
     (s.mg.locked = true → exec (.freezeTimerWrite v) s = .next locked ∧ exec (.lockWrite v) s = .next locked) ∧
     (s.mg.locked = false →
       exec (.freezeTimerWrite v) s = .next ((s.setFreeze { s.freeze with
         setting := v.extractLsb' 0 8, range := if v[8] then .minutes else .seconds }).setMg (s.mg.replied .ack 0)) ∧
       (v = 0 → exec (.lockWrite v) s = .next (s.setMg (s.mg.refused .argument))) ∧
       (v ≠ 0 → exec (.lockWrite v) s = .next (s.setMg ({ s.mg with locked := true, lockCode := v }.replied .ack 0)))) ∧
     (s.ctl.mode ≠ .idle → exec (.imageDataWrite v) s = .next (s.setMg (s.mg.refused .mode))) ∧
     (s.ctl.mode = .idle → s.mg.locked = true → exec (.imageDataWrite v) s = .next locked) ∧
     (s.ctl.mode = .idle → s.mg.locked = false →
       ∃ t, exec (.imageDataWrite v) s = .next t ∧ t.image.marks = s.image.marks ∧
         (s.image.wf → ∀ (w : Nat) (k : Fin 4), t.image.byte (4 * w + k.val) =
           if w = s.pointer.toNat then v.extractLsb' (8 * k.val) 8 else s.image.byte (4 * w + k.val)) ∧
         t = ((s.setImage t.image).setPointer (s.pointer + 1)).setMg (s.mg.replied .ack 0)))

/-- Writes that the lock refuses and whose value has a range: WATCHDOG PERIOD, STAGE LOW THRESHOLD, ACTIONS, QUIET MARK and RESUME
POLICY (R159, R48, R127, R130, R143). Where both tests fail one of the two reasons is given (log 5). -/
def Obligations.LockedWritesTaken : Prop :=
  ∀ (v : Word) (s : State), Attending s →
    let acked := fun t : State => t.setMg (s.mg.replied .ack 0)
    LockTested (.watchdogPeriodWrite v) (v = 0 ∨ 65535 < v.toNat) .range
      (acked (s.setTiming { s.timing with wdPeriod := v.setWidth 16 })) s ∧
    LockTested (.stageLowThresholdWrite v) (255 < v.toNat) .range
      (ackReply (followLevel .stageLow (s.setPool { s.pool with threshold := v.setWidth 8 }))) s ∧
    LockTested (.actionsWrite v) (v[8] = true ∨ v[9] = true) .argument
      (acked (s.setCauses { s.causes with actions := v.extractLsb' 0 10 })) s ∧
    LockTested (.quietMarkWrite v) (10 < v.toNat) .range
      (acked (s.setCauses { s.causes with quietMark := Fin.ofNat 11 v.toNat })) s ∧
    LockTested (.resumePolicyWrite v) (1 < v.toNat) .argument
      (acked (s.setReissue { s.reissue with policy := if v = 0 then .fresh else .reissue })) s

/-- QUALIFY CHAIN and QUALIFY STAGE LOW: the same value changes nothing; 0 makes the flag follow the condition; a longer or shorter
time lets a timer that runs go on, and latches at once a cause whose flag is clear and whose timer has counted as much; a flag that
is set stays set (R124). PRIORITY LIST A and B: A is held as the pending first part; B forms ten positions from it, or from the
list in effect, and becomes the list where every cause number stands in it once; otherwise it is refused with ARGUMENT; the
pending part is discarded in both cases (R129). While locked a good list is refused with LOCKED and the pending part kept (log 18),
and one that is no list is refused for one of the two reasons, with the effect of that refusal (log 5, log 18). -/
def Obligations.QualifyAndPriorityWritten : Prop :=
  (∀ (c : LevelCause) (v : Word) (s : State), Attending s →
     let l := s.causes.level c
     let time : BitVec 8 := v.setWidth 8
     let with' := fun l' => s.setCauses (s.causes.setLevel c l')
     (time = l.time → LockTested (.qualifyWrite c v) (255 < v.toNat) .range (ackReply s) s) ∧
     (time ≠ l.time → time = 0 → LockTested (.qualifyWrite c v) (255 < v.toNat) .range
       (ackReply (followLevel c (with' ⟨0, 0⟩))) s) ∧
     (time ≠ l.time → time ≠ 0 → l.time ≠ 0 → condition s c = true → s.causes.flag c.cause = false →
       time.toNat * 8000 ≤ l.timer → LockTested (.qualifyWrite c v) (255 < v.toNat) .range
         (ackReply (latch c.cause (with' ⟨time, time.toNat * 8000⟩))) s) ∧
     (time ≠ l.time → time ≠ 0 → l.time = 0 ∨ condition s c = false ∨ s.causes.flag c.cause = true →
       time.toNat * 8000 ≤ l.timer → LockTested (.qualifyWrite c v) (255 < v.toNat) .range
         (ackReply (with' ⟨time, time.toNat * 8000⟩)) s) ∧
     (time ≠ l.time → time ≠ 0 → l.timer < time.toNat * 8000 → LockTested (.qualifyWrite c v) (255 < v.toNat) .range
       (ackReply (with' ⟨time, l.timer⟩)) s)) ∧
  (∀ (v : Word) (s : State), Attending s →
     let digit := fun (w : Word) (k : Nat) => (w >>> (4 * k)).toNat % 16
     let a := s.causes.pendingFirst.getD (layoutPriorityA s.causes.priority)
     let numbers := [digit a 0, digit a 1, digit a 2, digit a 3, digit a 4, digit a 5, digit a 6, digit a 7, digit v 0, digit v 1]
     (s.mg.locked = true → exec (.priorityListAWrite v) s = .next (s.setMg (s.mg.refused .locked))) ∧
     (s.mg.locked = false →
       exec (.priorityListAWrite v) s = .next ((s.setCauses { s.causes with pendingFirst := some v }).setMg (s.mg.replied .ack 0))) ∧
     (s.mg.locked = false → ∀ l : List Cause, l.map Cause.num = numbers → l.Nodup →
       exec (.priorityListBWrite v) s =
         .next ((s.setCauses { s.causes with priority := l, pendingFirst := none }).setMg (s.mg.replied .ack 0))) ∧
     (s.mg.locked = false → (¬∃ l : List Cause, l.map Cause.num = numbers ∧ l.Nodup) →
       exec (.priorityListBWrite v) s =
         .next ((s.setCauses { s.causes with pendingFirst := none }).setMg (s.mg.refused .argument))) ∧
     (s.mg.locked = true → (∃ l : List Cause, l.map Cause.num = numbers ∧ l.Nodup) →
       exec (.priorityListBWrite v) s = .next (s.setMg (s.mg.refused .locked))) ∧
     (s.mg.locked = true → (¬∃ l : List Cause, l.map Cause.num = numbers ∧ l.Nodup) →
       exec (.priorityListBWrite v) s = .next (s.setMg (s.mg.refused .locked)) ∨
         exec (.priorityListBWrite v) s =
           .next ((s.setCauses { s.causes with pendingFirst := none }).setMg (s.mg.refused .argument))))

/-- WRITE_ITEM: a write of an item by its number is that item's own write; a read-only item is refused with ARGUMENT and an
undefined number is UNKNOWN (R166 steps 3, 5 and 6, Table 11-4). A request taken by the general steps from their first: a write is
WRITE_ITEM with its number, and a command is, by its code, the command of Table 11-3, with its argument, in flight or not (R166). -/
def Obligations.RequestsGoByNumberAndCode : Prop :=
  (∀ (code : Byte) (v : Word) (straps : BitVec 3) (s : State),
     exec (.unknownRequest .writeItem code v) s = exec (.writeItem code v) s ∧
     ∀ c : Instr, (code, c) ∈ [(0x01#8, .start v), (0x02#8, .stop v), (0x03#8, .resume v), (0x04#8, .safe .unicast v), (0x05#8, .freeze v),
         (0x06#8, .thaw v), (0x07#8, .commitWindow v), (0x08#8, .dropWindow v), (0x09#8, .unlock v),
         (0x0A#8, .reset .unicast v straps), (0x0B#8, .clearLongest v)] →
       exec (.unknownRequest (.command straps) code v) s = exec c s) ∧
  ∀ (v : Word) (s : State), Attending s →
    let same := fun (number : Byte) (c : Instr) => exec (.writeItem number v) s = exec c s
    same 0x08 (.causesWrite v) ∧ same 0x0B (.actionsWrite v) ∧ same 0x0C (.priorityListAWrite v) ∧
    same 0x0D (.priorityListBWrite v) ∧ same 0x0E (.quietMarkWrite v) ∧ same 0x0F (.qualifyWrite .chain v) ∧
    same 0x10 (.qualifyWrite .stageLow v) ∧ same 0x11 (.forceWrite v) ∧ same 0x18 (.markAddressWrite v) ∧
    same 0x19 (.markerAddressWrite v) ∧ same 0x20 (.watchdogPeriodWrite v) ∧ same 0x25 (.prescaleWrite v) ∧
    same 0x29 (.stageLowThresholdWrite v) ∧ same 0x30 (.freezeTimerWrite v) ∧ same 0x38 (.resumePolicyWrite v) ∧
    same 0x39 (.lockWrite v) ∧ same 0x40 (.imagePointerWrite v) ∧ same 0x41 (.imageDataWrite v) ∧
    (∀ n : WinIdx, same (BitVec.ofNat 8 (0x80 + 2 * n.val)) (.windowDescriptorWrite n .a v) ∧
      same (BitVec.ofNat 8 (0x81 + 2 * n.val)) (.windowDescriptorWrite n .b v)) ∧
    (∀ number ∈ [0x00#8, 0x01#8, 0x02#8, 0x09#8, 0x0A#8, 0x21#8, 0x22#8, 0x23#8, 0x24#8, 0x28#8, 0x31#8, 0x42#8],
      exec (.writeItem number v) s = .next (s.setMg (s.mg.refused .argument))) ∧
    exec (.writeItem 0x11 v) s =
      .next ((s.setCauses { s.causes with forceFault := v[0], forceAlert := v[1] }).setMg (s.mg.replied .ack 0)) ∧
    (∀ number : Byte, Item.ofNumber number = none →
      exec (.writeItem number v) s = .next (s.setMg (s.mg.replied .unknown 0)))

/-! ## Controller accesses (01 to 05) -/

/-- Routing: what Table 1-3 names for a write to the mark address, an access to no window, and an access to an input or output
window, by mode and freeze state; and a write to a window with no lane enabled (R11, R12, R16). -/
def Obligations.RoutingTable : Prop :=
  ∀ (s : State) (a : Access),
    let mode := s.ctl.mode
    (a.write = true → s.mark.enabled = true → a.addr = s.mark.addr →
      treatment s a = match mode with
        | .armed => .firstMark
        | .run => .boundary
        | _ => .pass) ∧
    (isMark s a = false → (∀ n : WinIdx, (s.win[n]).covers a.addr = false) → treatment s a = .pass) ∧
    (isMark s a = false → ∀ n : WinIdx, findWin s.win a.addr = some n →
      let w := s.win[n]
      let cut := w.freeze = .frozen ∨ w.freeze = .thawPending
      (mode = .idle → treatment s a = .pass) ∧
      (a.write = true → a.enables = 0 → mode = .armed ∨ mode = .run ∨ mode = .safe → treatment s a = .ack) ∧
      (a.write = true → a.enables ≠ 0 ∨ mode = .ending →
        (w.record.kind = .input →
          (mode = .ending → treatment s a = .pass) ∧
          (mode = .armed → treatment s a = if cut then .discard true else .pass) ∧
          (mode = .run → treatment s a = if cut then .discard true else .passNoted) ∧
          (mode = .safe → treatment s a = .discard true)) ∧
        (w.record.kind = .output →
          (mode = .ending → treatment s a = .endingStall) ∧
          (mode = .armed → treatment s a = if cut then .imageOwed n else .passImage n) ∧
          (mode = .run → treatment s a = .staged n) ∧
          (mode = .safe → treatment s a = .discard false))) ∧
      (a.write = false →
        (w.record.kind = .input →
          (mode = .ending → treatment s a = .pass) ∧
          (mode = .armed → treatment s a = if cut then .held n else .pass) ∧
          (mode = .run → treatment s a = if cut then .held n else .sampled n) ∧
          (mode = .safe → treatment s a = .held n)) ∧
        (w.record.kind = .output → mode ≠ .idle → treatment s a = if cut then .mergedNoMem n else .merged n)))

/-- An access that passes, a passing write to an output window in ARMED, and a write stalled in ENDING wait for the Memory Port or
the stall's end, with nothing else changed (R3, R14, R66); an access taken while RESET is asserted is held (R4); an access
offered while another stands is not taken (R1, log 13). An access answered at once: a discarded write and a write with no lane
enabled with CP-ACK, an input write that is discarded latching INPUT WRITE as well, and a held read with the slice word where
HELD is set and zero where it is clear (R13, R16). A write to an open input window in RUN passes and latches INPUT WRITE: it waits
for the Memory Port, or has begun on it where the port was free and granted first (R85; which comes first by log 6). -/
def Obligations.AccessWaitsOrEnds : Prop :=
  (∀ (a : Access) (g : Bool) (s : State),
     (CpOpen s →
       let waits := fun w => exec (.controllerAccess a g) s = .next (followLevel .stageLow (s.setCp (.outstanding ⟨a, classify s a, w, false⟩)))
       (treatment s a = .pass → waits (.service .pass)) ∧
       (∀ n, treatment s a = .passImage n → waits (.service .passImage)) ∧
       (treatment s a = .endingStall → waits .endingStall)) ∧
     (s.cp = .idle → s.lines.resetHeld = true →
       exec (.controllerAccess a g) s = .next (s.setCp (.outstanding ⟨a, .plain, .held, false⟩))) ∧
     (s.cp ≠ .idle → exec (.controllerAccess a g) s = .next s)) ∧
  (∀ (a : Access) (g : Bool) (s : State), CpOpen s →
     let ends := fun v => s.setCp (.ended true false v)
     (treatment s a = .ack ∨ treatment s a = .discard false →
       exec (.controllerAccess a g) s = .next (followLevel .stageLow (ends 0))) ∧
     (treatment s a = .discard true →
       exec (.controllerAccess a g) s = .next (followLevel .stageLow (latch .inputWrite (ends 0)))) ∧
     (∀ n, treatment s a = .held n →
       let w := (s.win[n]).record.imageBase.toNat + (a.addr.toNat - (s.win[n]).record.base.toNat)
       exec (.controllerAccess a g) s = .next (followLevel .stageLow
         (ends (if (s.image.marksAt w).held = true then s.image.word w else 0))))) ∧
  (∀ (a : Access) (g : Bool) (s : State), CpOpen s → treatment s a = .passNoted →
     (g = false ∨ portFree s = false ∨ cutOffAddr s.win a.addr = true →
       exec (.controllerAccess a g) s = .next (followLevel .stageLow (latch .inputWrite
         (s.setCp (.outstanding ⟨a, classify s a, .service .pass, true⟩))))) ∧
     (g = true → portFree s = true → cutOffAddr s.win a.addr = false →
       exec (.controllerAccess a g) s = .next (followLevel .stageLow (latch .inputWrite
         ((s.setMp (some ⟨a.addr, a.write, a.enables, a.data, .pass⟩)).setCp
           (.outstanding ⟨a, classify s a, .begun, true⟩))))))

/-- A read of an input window in RUN: a FRESH word is answered from the slice; a word whose walk read is in flight shares that read;
any other is a priority fetch (R81, R82, R83). A read of an output window: each lane comes from the open stage in RUN, else from
the image where it is valid, else from memory; with no lane missing it is answered at once, and in a frozen window a missing lane
is zero (R56, R63 to R65). -/
def Obligations.WindowReadsServed : Prop :=
  (∀ (a : Access) (g : Bool) (s : State) (n : WinIdx), CpOpen s → treatment s a = .sampled n →
     let w := (s.win[n]).record.imageBase.toNat + (a.addr.toNat - (s.win[n]).record.base.toNat)
     let next := fun c => exec (.controllerAccess a g) s = .next (followLevel .stageLow (s.setCp c))
     ((s.image.marksAt w).fresh = true → next (.ended true false (s.image.word w))) ∧
     ((s.image.marksAt w).fresh = false → (∃ p m stale, s.mp = some p ∧ p.owner = .walkRead m stale ∧ p.addr = a.addr) →
       next (.outstanding ⟨a, .input n, .shared, false⟩)) ∧
     ((s.image.marksAt w).fresh = false → (∀ p m stale, s.mp = some p → p.owner = .walkRead m stale → p.addr ≠ a.addr) →
       next (.outstanding ⟨a, .input n, .service .fetch, false⟩))) ∧
  (∀ (a : Access) (g : Bool) (s : State) (n : WinIdx), CpOpen s →
     let w := (s.win[n]).record.imageBase.toNat + (a.addr.toNat - (s.win[n]).record.base.toNat)
     let staged := fun (k : Fin 4) => if s.ctl.mode = .run then
       (s.pool.openStage.find? fun e => decide (e.addr = a.addr)).bind fun e => if e.mask[k] then some (lane k.val e.data) else none
       else none
     let found := fun (k : Fin 4) => (staged k).orElse fun _ =>
       if (s.image.marksAt w).valid[k] then some (s.image.byte (4 * w + k.val)) else none
     (treatment s a = .merged n → (∀ k, (found k).isSome = true) →
       ∃ v, exec (.controllerAccess a g) s = .next (followLevel .stageLow (s.setCp (.ended true false v))) ∧
         ∀ k : Fin 4, some (lane k.val v) = found k) ∧
     (treatment s a = .merged n → (∃ k, found k = none) →
       exec (.controllerAccess a g) s =
         .next (followLevel .stageLow (s.setCp (.outstanding ⟨a, .output n, .service .merged, false⟩)))) ∧
     (treatment s a = .mergedNoMem n →
       ∃ v, exec (.controllerAccess a g) s = .next (followLevel .stageLow (s.setCp (.ended true false v))) ∧
         ∀ k : Fin 4, lane k.val v = (found k).getD 0))

/-- A write to an output window in RUN whose word has no entry: with a free entry it becomes a new entry at the tail and ends with
CP-ACK; with none free but some held for the release queue it stalls (R38, R40, R41). A write to an output window in RUN whose
word has an entry coalesces into it: enabled lanes take the new data and join the mask, the entry keeps its place, and the write
ends with CP-ACK (R39). -/
def Obligations.StagedWriteTaken : Prop :=
  (∀ (a : Access) (g : Bool) (s : State) (n : WinIdx), CpOpen s → treatment s a = .staged n →
     s.pool.openStage.find? (fun e => decide (e.addr = a.addr)) = none →
     (0 < freeCount s →
       ∃ e : Entry, e.addr = a.addr ∧ e.window = n ∧ e.mask = a.enables ∧
         (∀ k : Fin 4, lane k.val e.data = if a.enables[k] = true then lane k.val a.data else 0) ∧
         exec (.controllerAccess a g) s = .next (followLevel .stageLow
           ((s.setPool { s.pool with openStage := s.pool.openStage ++ [e] }).setCp (.ended true false 0)))) ∧
     (freeCount s = 0 → 0 < queuedCount s →
       exec (.controllerAccess a g) s = .next (followLevel .stageLow (s.setCp (.outstanding ⟨a, .output n, .poolStall, false⟩))))) ∧
  (∀ (a : Access) (g : Bool) (s : State) (n : WinIdx) (l₁ l₂ : List Entry) (e : Entry), CpOpen s → treatment s a = .staged n →
     s.pool.openStage = l₁ ++ e :: l₂ → e.addr = a.addr → (∀ d ∈ l₁ ++ l₂, d.addr ≠ a.addr) →
     ∃ e' : Entry, e'.addr = e.addr ∧ e'.window = e.window ∧ e'.mask = (e.mask ||| a.enables) ∧
       (∀ k : Fin 4, lane k.val e'.data = if a.enables[k] = true then lane k.val a.data else lane k.val e.data) ∧
       exec (.controllerAccess a g) s = .next (followLevel .stageLow
         ((s.setPool { s.pool with openStage := l₁ ++ e' :: l₂ }).setCp (.ended true false 0))))

/-- A write to a frozen output window in ARMED: its enabled lanes go into the image word with valid and owed set, no other byte or
mark of the store changes, and the write ends with CP-ACK and no Memory Port access (R67). A torn write, with no entry free and
none to come free: TORN of the scan is set and the cause latches. To a frozen window it goes into the image with owed and ends;
otherwise it waits for the Memory Port, or has begun on it where the port was free and granted first (R43 to R46; which comes
first by log 6). -/
def Obligations.FrozenAndTornWritesTaken : Prop :=
  (∀ (a : Access) (g : Bool) (s : State) (n : WinIdx), CpOpen s → s.image.wf → treatment s a = .imageOwed n →
     let w := (s.win[n]).record.imageBase.toNat + (a.addr.toNat - (s.win[n]).record.base.toNat)
     ∃ st : Store,
       exec (.controllerAccess a g) s = .next (followLevel .stageLow ((s.setImage st).setCp (.ended true false 0))) ∧
       (∀ (j : Nat) (k : Fin 4), st.byte (4 * j + k.val) =
         if j = w ∧ a.enables[k] = true then lane k.val a.data else s.image.byte (4 * j + k.val)) ∧
       (∀ j : Nat, st.marksAt j =
         if j = w then { s.image.marksAt w with
           valid := (s.image.marksAt w).valid ||| a.enables, owed := (s.image.marksAt w).owed ||| a.enables }
         else s.image.marksAt j)) ∧
  (∀ (a : Access) (g : Bool) (s : State) (n : WinIdx), CpOpen s → treatment s a = .staged n →
     s.pool.openStage.find? (fun e => decide (e.addr = a.addr)) = none → freeCount s = 0 → queuedCount s = 0 →
     let torn := s.setCtl { s.ctl with torn := true }
     (((s.win[n]).freeze = .frozen ∨ (s.win[n]).freeze = .thawPending) →
       exec (.controllerAccess a g) s = .next (followLevel .stageLow (latch .torn
         (endAccess true 0 (writeImage n a.addr a.enables a.data (Marks.owe a.enables) torn))))) ∧
     (((s.win[n]).freeze = .opened ∨ (s.win[n]).freeze = .freezePending) →
       g = false ∨ portFree s = false ∨ cutOffAddr s.win a.addr = true →
       exec (.controllerAccess a g) s = .next (followLevel .stageLow (latch .torn
         (torn.setCp (.outstanding ⟨a, .output n, .service .torn, true⟩))))) ∧
     (((s.win[n]).freeze = .opened ∨ (s.win[n]).freeze = .freezePending) → g = true → portFree s = true →
       cutOffAddr s.win a.addr = false →
       exec (.controllerAccess a g) s = .next (followLevel .stageLow (latch .torn
         ((torn.setMp (some ⟨a.addr, a.write, a.enables, a.data, .torn n⟩)).setCp
           (.outstanding ⟨a, .output n, .begun, true⟩))))))

/-- MARK_STALL_END: the oldest record, its work ended, retires, and the stalled mark has its boundary with the states as they then
stand, OVERRUN latching again only for an unfinished walk (R24, R79, R94); POOL_STALL_END: a stalled write takes a free entry (R41);
ENDING_STALL_END: the last record retires, the mode is IDLE and the stalled write passes (R14, R30). Each row does for the stall
what RETIREMENT does (log 28); one that finds the record gone or the mode changed already ends the stall alone. CP_REQ_NEGATED: an ended
access leaves the port free for the next (R1). While no access has ended nothing happens (log 13). -/
def Obligations.StallsAndAccessEnd : Prop :=
  (∀ (a : Access) (c : AccessClass) (taken : Bool) (s : State),
     let after := (boundary s).setCp (.outstanding ⟨a, c, .service .pass, true⟩)
     let due := s.release.retireDue = true ∧ s.release.queue ≠ []
     (s.cp = .outstanding ⟨a, c, .markStall, taken⟩ → due → exec .markStallEnd s = exec .retirement s) ∧
     (s.cp = .outstanding ⟨a, c, .markStall, taken⟩ → ¬due → s.ctl.mode = .run → s.release.queue.length < 4 →
       (s.sampler.state ≠ .walking → exec .markStallEnd s = .next (followLevel .stageLow after)) ∧
       (s.sampler.state = .walking → exec .markStallEnd s = .next (followLevel .stageLow (latch .overrun after)))) ∧
     (∀ n, s.cp = .outstanding ⟨a, .output n, .poolStall, taken⟩ → 0 < freeCount s → s.ctl.mode = .run → a.write = true →
       a.enables ≠ 0 → s.pool.openStage.find? (fun e => decide (e.addr = a.addr)) = none →
       exec .poolStallEnd s = .next (followLevel .stageLow
         ((s.setPool { s.pool with openStage := s.pool.openStage ++ [Entry.ofAccess n a] }).setCp (.ended true false 0)))) ∧
     (s.cp = .outstanding ⟨a, c, .endingStall, taken⟩ → s.ctl.mode = .ending → s.release.retireDue = true →
       s.release.queue.length = 1 → exec .endingStallEnd s = exec .retirement s) ∧
     (∀ n, s.cp = .outstanding ⟨a, .output n, .endingStall, taken⟩ → s.ctl.mode = .idle →
       exec .endingStallEnd s = .next (s.setCp (.outstanding ⟨a, .output n, .service .pass, taken⟩)))) ∧
  (∀ s : State,
     (∀ ack fail data, s.cp = .ended ack fail data → exec .cpReqNegated s = .next (s.setCp .idle)) ∧
     ((∀ ack fail data, s.cp ≠ .ended ack fail data) → exec .cpReqNegated s = .next s))

/-- What routing anew gives an access that waits, by the class it was taken with, the mode and its window's freeze state (Table 1-3):
nothing where neither has changed, or where its Memory Port access has begun; a pass, to wait for; the first mark for a mark not yet
had its effect, where the mode is ARMED; a held, merged or sampled read as a fresh one; the image with owed, or a discard, that ends
it, INPUT WRITE latching if it has not (R11 to R15; log 9 for the effects had; log 30 for a window that has lost the address). -/
def Obligations.WaitingAccessRoutedAnew : Prop :=
  (∀ before s : State,
     ((∀ o, s.cp = .outstanding o → o.wait.movable = false) → reroute before s = s) ∧
     (∀ o, s.cp = .outstanding o → before.ctl.mode = s.ctl.mode →
       (∀ n, o.cls = .input n ∨ o.cls = .output n → (before.win[n]).freeze = (s.win[n]).freeze) → reroute before s = s)) ∧
  (∀ (before s : State) (o : Outstanding), s.cp = .outstanding o → o.wait.movable = true →
     before.ctl.mode ≠ s.ctl.mode ∨
       (∃ n, (o.cls = .input n ∨ o.cls = .output n) ∧ (before.win[n]).freeze ≠ (s.win[n]).freeze) →
     let gives := fun t => reroute before s = t
     let waits := fun w => gives (s.setCp (.outstanding { o with wait := w }))
     let ends := fun v => gives (s.setCp (.ended true false v))
     let noted := fun t => if o.effectTaken = true then t else latch .inputWrite t
     let mode := s.ctl.mode
     let empty := o.access.write = true ∧ o.access.enables = 0 ∧ mode ≠ .idle ∧ mode ≠ .ending
     (mode = .idle ∨ o.cls = .plain → waits (.service .pass)) ∧
     (o.cls = .mark → mode = .ending ∨ mode = .safe ∨ o.effectTaken = true → waits (.service .pass)) ∧
     (o.cls = .mark → mode = .armed → o.effectTaken = false →
       gives ((firstMark s).setCp (.outstanding ⟨o.access, .mark, .service .pass, true⟩))) ∧
     (∀ n, o.cls = .input n ∨ o.cls = .output n → empty → ends 0) ∧
     (∀ n, o.cls = .input n →
       let cut := (s.win[n]).freeze = .frozen ∨ (s.win[n]).freeze = .thawPending
       (mode = .ending ∨ (mode = .armed ∧ ¬cut ∧ ¬empty) → waits (.service .pass)) ∧
       (mode = .safe ∨ (mode = .armed ∨ mode = .run) ∧ cut →
         (o.access.write = false → ends (heldValue s n o.access.addr)) ∧
         (o.access.write = true → ¬empty → gives (noted (s.setCp (.ended true false 0))))) ∧
       (mode = .run → ¬cut → o.access.write = false → gives (sampledRead n o s)) ∧
       (mode = .run → ¬cut → o.access.write = true → ¬empty →
         gives (noted (s.setCp (.outstanding ⟨o.access, .input n, .service .pass, true⟩))))) ∧
     (∀ n, o.cls = .output n →
       let cut := (s.win[n]).freeze = .frozen ∨ (s.win[n]).freeze = .thawPending
       (o.access.write = true → mode = .ending → waits .endingStall) ∧
       (o.access.write = true → mode = .armed → ¬empty → ¬cut → waits (.service .passImage)) ∧
       (o.access.write = true → mode = .armed → ¬empty → cut → gives
         ((writeImage n o.access.addr o.access.enables o.access.data (Marks.owe o.access.enables) s).setCp (.ended true false 0))) ∧
       (o.access.write = true → mode = .safe → ends 0) ∧
       (o.access.write = false → mode ≠ .idle → ¬cut → gives (mergedRead n o s)) ∧
       (o.access.write = true → mode = .run → ¬empty → o.wait = .poolStall ∨ o.wait = .service .torn → gives s) ∧
       (o.access.write = false → mode ≠ .idle → cut → ends (gather s n o.access.addr).1)))

/-! ## Marks and boundaries (02, 03, 05, 07, 10) -/

/-- The first mark: the mode is RUN, the cycle number goes on, FIRST is set, TORN clear, timing restarts, and the write waits for
its pass; FRESH is cleared on every input slice and a walk begins, at the first word of its set, or is finished with sampling-done
where the set has none; a walk read in flight will make nothing FRESH (R21, R75 to R78, R153). A mark in RUN: with fewer than four
records the boundary is taken and the write waits for its pass, OVERRUN latching where a record was outstanding or the walk
unfinished; with four it stalls and OVERRUN latches (R22, R24, R79, R95). -/
def Obligations.MarksTaken : Prop :=
  (∀ (a : Access) (g : Bool) (s : State), CpOpen s → treatment s a = .firstMark →
     exec (.controllerAccess a g) s = .next (followLevel .stageLow ((firstMark s).setCp (.outstanding ⟨a, .mark, .service .pass, true⟩))) ∧
     (firstMark s).ctl = { s.ctl with
       mode := .run, number := if s.ctl.number = 65535 then 1 else s.ctl.number + 1, first := true, torn := false } ∧
     (firstMark s).timing =
       { s.timing with count := 0, running := true, wdLimit := 10 * s.timing.wdPeriod.toNat, wdState := .running } ∧
     (let set := allWin.filter fun n =>
        (s.win[n]).isInput && decide ((s.win[n]).freeze = .opened ∨ (s.win[n]).freeze = .thawPending)
      (firstMark s).sampler.walkSet = set ∧
        WalkComesTo s.win (firstMark s).image (fun _ _ => True) ⟨.walking, none, set, false⟩ (firstMark s).sampler) ∧
     (s.image.wf → ∀ w,
       let input := ∃ n : WinIdx, (s.win[n]).defined = true ∧ (s.win[n]).record.kind = .input ∧ (s.win[n]).record.inImage w = true
       (input → (firstMark s).image.marksAt w = { s.image.marksAt w with fresh := false }) ∧
         (¬input → (firstMark s).image.marksAt w = s.image.marksAt w)) ∧
     (firstMark s).mp = (s.mp.map fun p => { p with owner := match p.owner with
       | .walkRead n _ => .walkRead n true
       | o => o }) ∧
     SettingsKept s (firstMark s) ∧ (firstMark s).background = s.background ∧ (firstMark s).cp = s.cp ∧ (firstMark s).mg = s.mg ∧
     (firstMark s).fill = s.fill ∧ (firstMark s).reissue = s.reissue ∧
     (∀ a, (firstMark s).image.byte a = s.image.byte a) ∧ (firstMark s).win = s.win ∧ (firstMark s).pool = s.pool ∧
     (firstMark s).release = s.release ∧ (firstMark s).causes = s.causes ∧ (firstMark s).freeze = s.freeze) ∧
  (∀ (a : Access) (g : Bool) (s : State), CpOpen s → treatment s a = .boundary →
     let after := (boundary s).setCp (.outstanding ⟨a, .mark, .service .pass, true⟩)
     (s.release.queue = [] → s.sampler.state ≠ .walking →
       exec (.controllerAccess a g) s = .next (followLevel .stageLow after)) ∧
     (s.release.queue.length < 4 → s.release.queue ≠ [] ∨ s.sampler.state = .walking →
       exec (.controllerAccess a g) s = .next (followLevel .stageLow (latch .overrun after))) ∧
     (4 ≤ s.release.queue.length →
       exec (.controllerAccess a g) s = .next (followLevel .stageLow (latch .overrun (s.setCp (.outstanding ⟨a, .mark, .markStall, false⟩))))))

/-- A boundary in the cycle controller, cycle timing, freeze control and the sampler: the number goes on, the flags clear, the count
is the period sample and restarts, pending freezes and thaws settle, and a walk begins over the input windows not freezing; at
the stopping boundary the mode is ENDING, timing stops and the sampler is STOPPED. The walk begins at the first word of its set that
is not FRESH, or is finished with sampling-done where there is none. Every prescale-th sample is captured, the watchdog takes its
limit from the setting at its restart, and the freeze timer follows the frozen set. A walk read in flight will make nothing FRESH,
and the purge reaches an entry and a flush word in flight of a freezing window (R22, R28, R53, R75 to R78, R80, R112, R117, R154,
R155, R157, R159). -/
def Obligations.BoundaryActs : Prop :=
  ∀ s : State,
    let t := boundary s
    t.ctl = { mode := if s.ctl.stopPending then .ending else .run,
              number := if s.ctl.number = 65535 then 1 else s.ctl.number + 1, stopPending := false, first := false, torn := false } ∧
    t.timing.last = s.timing.count ∧
    t.timing.longest = (if s.timing.longest < s.timing.count then s.timing.count else s.timing.longest) ∧
    t.timing.count = 0 ∧ t.timing.running = !s.ctl.stopPending ∧
    t.timing.wdState = (if s.ctl.stopPending then .stopped else .running) ∧
    t.timing.wdLimit = (if s.ctl.stopPending then s.timing.wdLimit else 10 * s.timing.wdPeriod.toNat) ∧
    t.timing.wdPeriod = s.timing.wdPeriod ∧ t.timing.prescale = s.timing.prescale ∧
    (t.timing.prescaleCount, t.timing.capture, t.timing.captured, t.timing.captureOverrun) =
      (if s.timing.prescaleCount + 1 = s.timing.prescale then
        (0, s.timing.count, true, s.timing.captureOverrun || s.timing.captured)
       else (s.timing.prescaleCount + 1, s.timing.capture, s.timing.captured, s.timing.captureOverrun)) ∧
    (∀ n : WinIdx, t.win[n] = { s.win[n] with freeze := match (s.win[n]).freeze with
      | .freezePending => .frozen
      | .thawPending => .opened
      | f => f }) ∧
    t.freeze.firstFlush = [] ∧ TimerFollows s.freeze t.freeze (frozenSet s.win) (frozenSet t.win) ∧
    t.pool = { s.pool with openStage := [] } ∧
    (s.ctl.stopPending = true → t.sampler = { state := .stopped, position := none, walkSet := [], done := false }) ∧
    (let set := allWin.filter fun n =>
       (s.win[n]).isInput && decide ((s.win[n]).freeze = .opened ∨ (s.win[n]).freeze = .thawPending)
     s.ctl.stopPending = false → t.sampler.state ≠ .stopped ∧ t.sampler.walkSet = set ∧
       WalkComesTo s.win t.image (fun _ _ => True) ⟨.walking, none, set, false⟩ t.sampler) ∧
    (let freezing := fun n : WinIdx => decide ((s.win[n]).freeze = .frozen ∨ (s.win[n]).freeze = .freezePending)
     t.mp = s.mp.map fun p => { p with owner := match p.owner with
       | .walkRead n _ => .walkRead n true
       | .entry n .queued => if freezing n = true then .entry n .purged else .entry n .queued
       | .flushWord n x => .flushWord n (x || freezing n)
       | o => o }) ∧
    SettingsKept s t ∧ t.background = s.background ∧ t.causes = s.causes ∧ t.cp = s.cp ∧ t.mg = s.mg ∧ t.fill = s.fill ∧
    t.reissue = s.reissue

/-- The batch record a boundary forms at the tail of the queue, with the purge of the records before it: the record has the ended
scan's number and flags, the entries of windows not freezing, and the flush set of R112; entries and flush windows of freezing
windows leave the older records, which keep their places, their numbers and their FIRST and TORN. With a record outstanding and
no purged entry in flight, the purge and the new record are all that the boundary changes in the queue; where the queue was empty
its new head takes its first stage, and so does a head whose entry in flight has been purged (R51 to R53, R90, R112; log 29 for
the last). -/
def Obligations.BoundaryFormsRecord : Prop :=
  ∀ s : State,
    let freezing := fun n : WinIdx => decide ((s.win[n]).freeze = .frozen ∨ (s.win[n]).freeze = .freezePending)
    let flush := allWin.filter fun n => (decide ((s.win[n]).freeze = .thawPending) || decide (n ∈ s.freeze.firstFlush)) && !freezing n
    let after : List BatchRecord := (s.release.queue.map fun r => { r with
        entries := r.entries.filter fun e => !freezing e.window
        flushSet := r.flushSet.filter fun n => !freezing n
        flush := r.flush && (decide (r.flushSet.filter (fun n => !freezing n) ≠ []) || decide (r.flushSet = [])) }) ++
      [{ cycle := s.ctl.number, entries := s.pool.openStage.filter fun e => !freezing e.window, flushSet := flush,
         first := s.ctl.first, torn := s.ctl.torn, flush := decide (flush ≠ []), stage := .queued }]
    ((boundary s).release.queue.map fun r => (r.cycle, r.entries, r.first, r.torn, r.flush)) =
      (after.map fun r => (r.cycle, r.entries, r.first, r.torn, r.flush)) ∧
    (let orphan := ∃ p n, s.mp = some p ∧ (p.owner = .entry n .purged ∨ p.owner = .entry n .queued ∧ freezing n = true)
     let formed := (boundary s).setRelease { s.release with queue := after }
     (s.release.queue = [] ∨ orphan → boundary s = settleHead formed) ∧
       (s.release.queue ≠ [] → ¬orphan → boundary s = formed))

/-- The commit of one entry: its masked bytes are written into the image word and marked valid, and owed is set where the window is
freezing at the mark and clear where it is not; every other byte and mark stays (R49, R50). The image at a boundary: the open
stage is committed entry by entry in its order; the purge sets owed on the valid bytes of the older records' entries of windows
freezing at the mark, and of an entry or a flush word of such a window that is on the Memory Port; FRESH is cleared on the input
slices; nothing else changes (R49, R52, R53, R75, R80). -/
def Obligations.BoundaryCommits : Prop :=
  (∀ (ws : Windows) (st : Store) (e : Entry) (w : Nat), st.wf → imageWord ws .output e.window e.addr = some w →
     let t := commitEntry ws st e
     (∀ (j : Nat) (k : Fin 4), t.byte (4 * j + k.val) =
       if j = w ∧ e.mask[k] = true then lane k.val e.data else st.byte (4 * j + k.val)) ∧
     (∀ j : Nat, j ≠ w → t.marksAt j = st.marksAt j) ∧
     (t.marksAt w).held = (st.marksAt w).held ∧ (t.marksAt w).fresh = (st.marksAt w).fresh ∧
     (t.marksAt w).valid = ((st.marksAt w).valid ||| e.mask) ∧
     (t.marksAt w).owed =
       (if (ws[e.window]).freeze = .frozen ∨ (ws[e.window]).freeze = .freezePending then (st.marksAt w).owed ||| e.mask
        else (st.marksAt w).owed &&& ~~~e.mask)) ∧
  (∀ s : State, s.image.wf →
     let freezing := fun n : WinIdx => (s.win[n]).freeze = .frozen ∨ (s.win[n]).freeze = .freezePending
     let committed := s.pool.openStage.foldl (commitEntry s.win) s.image
     let hits := fun (n : WinIdx) (a : Addr) (l : Lanes) (w : Nat) (k : Fin 4) =>
       freezing n ∧ imageWord s.win .output n a = some w ∧ l[k] = true
     let purged := fun (w : Nat) (k : Fin 4) =>
       (∃ r ∈ s.release.queue, ∃ e ∈ r.entries, hits e.window e.addr e.mask w k) ∨
       ∃ p n, s.mp = some p ∧ (p.owner = .entry n .queued ∨ ∃ x, p.owner = .flushWord n x) ∧ hits n p.addr p.enables w k
     let st := (boundary s).image
     (∀ a, st.byte a = committed.byte a) ∧
     (∀ w, (st.marksAt w).valid = (committed.marksAt w).valid ∧ (st.marksAt w).held = (committed.marksAt w).held ∧
       (st.marksAt w).fresh = ((committed.marksAt w).fresh && !inInputImage s.win w)) ∧
     ∀ (w : Nat) (k : Fin 4), (st.marksAt w).owed[k] = true ↔
       (committed.marksAt w).owed[k] = true ∨ ((committed.marksAt w).valid[k] = true ∧ purged w k))

/-! ## The Memory Port (01, 06) -/

/-- A grant to the controller's access: with the port free and both lines negated, a pass whose address is in no window cut off from
memory begins on the Memory Port with the controller's own lines (R2, R3, R97). The release engine's write of an entry at its
grant: the head record's first entry, by its address, its mask and its data; and the background grant is the release engine's
(R91, R97). A safe fill's write at its grant: all four lanes of the word the fill has reached, with zero under ZERO and the word
of the safe slice under PATTERN (R138). The marker
words: a batch's marker carries its record's number and flags, the SAFE and REISSUE markers the controller's number and their
own bit, each written to the marker address with all four lanes enabled (R93, R96, R139, R148, Table 11-11). -/
def Obligations.GrantsBeginAccesses : Prop :=
  (∀ (a : Access) (c : AccessClass) (taken : Bool) (s : State), s.lines.resetHeld = false → s.mp = none →
     s.cp = .outstanding ⟨a, c, .service .pass, taken⟩ → (∀ n : WinIdx, (s.win[n]).covers a.addr = true → (s.win[n]).freeze.cutOff = false) →
     exec (.memoryPortGrant ⟨false, false⟩) s = .next (((s.setLines { s.lines with mpAck := false, mpFail := false }).setMp
       (some ⟨a.addr, a.write, a.enables, a.data, .pass⟩)).setCp (.outstanding ⟨a, c, .begun, taken⟩))) ∧
  (∀ (s : State) (r : BatchRecord) (rest : List BatchRecord) (e : Entry) (es : List Entry), s.lines.resetHeld = false → s.mp = none →
     controllerWaiting s = false → samplerRequest s ≠ .waiting → s.release.queue = r :: rest → r.stage = .writing →
     r.entries = e :: es → s.release.retireDue = false → cutOffAddr s.win e.addr = false →
     exec (.memoryPortGrant ⟨false, false⟩) s = .next (((s.setLines { s.lines with mpAck := false, mpFail := false }).setMp
       (some ⟨e.addr, true, e.mask, e.data, .entry e.window .queued⟩)).setBackground .release)) ∧
  (∀ (s : State) (n : WinIdx) (ns : List WinIdx), s.lines.resetHeld = false → s.mp = none → controllerWaiting s = false →
     samplerRequest s ≠ .waiting → s.release.queue = [] → s.fill.active = true → s.fill.phase = .words → s.fill.list = n :: ns →
     let a := (s.win[n]).record.base + BitVec.ofNat 22 s.fill.offset
     let v := if (s.win[n]).record.policy = .pattern then s.image.word ((s.win[n]).record.safeBase.toNat + s.fill.offset) else 0
     cutOffAddr s.win a = false →
     exec (.memoryPortGrant ⟨false, false⟩) s = .next (((s.setLines { s.lines with mpAck := false, mpFail := false }).setMp
       (some ⟨a, true, 0b1111#4, v, .fillWord n true⟩)).setBackground .release)) ∧
  (∀ s : State, s.lines.resetHeld = false → s.mp = none → controllerWaiting s = false → samplerRequest s ≠ .waiting →
     cutOffAddr s.win s.marker.addr = false →
     let bit := fun (b : Bool) (k : Nat) => if b then 1#32 <<< k else 0#32
     let writes := fun (v : Word) (o : Owner) => exec (.memoryPortGrant ⟨false, false⟩) s =
       .next (((s.setLines { s.lines with mpAck := false, mpFail := false }).setMp
         (some ⟨s.marker.addr, true, 0b1111#4, v, o⟩)).setBackground .release)
     (∀ r rest, s.release.queue = r :: rest → s.release.retireDue = false → r.stage = .marking →
       writes (r.cycle.setWidth 32 ||| bit r.first 16 ||| bit r.torn 17 ||| bit r.flush 18) (.batchMarker true)) ∧
     (s.release.queue = [] → s.fill.active = true → s.fill.phase = .marker →
       writes (s.ctl.number.setWidth 32 ||| bit true 19) (.safeMarker true)) ∧
     (s.release.queue = [] → s.fill.active = false → s.reissue.resuming = true → s.reissue.phase = .marker →
       writes (s.ctl.number.setWidth 32 ||| bit true 20) (.reissueMarker true)))

/-- The other grants to the controller's access: a write that passes with image and a torn write-through begin with the controller's own
lines; a priority fetch reads the whole word; a merged read makes its lookup again and reads with the missing lanes enabled, or
ends where none is missing (R44, R64, R66, R83). A walk read reads the whole word at the walk position; one found FRESH at the
grant, or in a window cut off from memory, is withdrawn and the walk moves on (R76, R98). A flush word carries its owed lanes and
a reissue word its valid lanes with the image's data, as they stand at the grant; one with no such lane is passed over (R92,
R147). Withdrawn at the grant as well: the request of a head record whose entries the purge has emptied, and one for a window that
is no longer in its flush set, the record taking the stage that then applies (R91, R92, R98; log 29), and a fill word of a window
frozen in SAFE, its owed marks left as they stand and the fill going on past it (R138, R141, R149). -/
def Obligations.ServiceAndWordGrants : Prop :=
  (∀ (a : Access) (taken : Bool) (n : WinIdx) (c : AccessClass) (k : Service) (s : State), s.lines.resetHeld = false → s.mp = none →
     s.cp = .outstanding ⟨a, c, .service k, taken⟩ → cutOffAddr s.win a.addr = false →
     let t := s.setLines { s.lines with mpAck := false, mpFail := false }
     let begins := fun p => exec (.memoryPortGrant ⟨false, false⟩) s =
       .next ((t.setMp (some p)).setCp (.outstanding ⟨a, c, .begun, taken⟩))
     let g := gather s n a.addr
     (k = .passImage → c = .output n → begins ⟨a.addr, a.write, a.enables, a.data, .passImage n⟩) ∧
     (k = .torn → c = .output n → begins ⟨a.addr, a.write, a.enables, a.data, .torn n⟩) ∧
     (k = .fetch → c = .input n → begins ⟨a.addr, false, 0b1111#4, 0, .fetch n⟩) ∧
     (k = .merged → c = .output n → g.2 ≠ 0 → begins ⟨a.addr, false, g.2, 0, .merged g.1 g.2⟩) ∧
     (k = .merged → c = .output n → g.2 = 0 →
       exec (.memoryPortGrant ⟨false, false⟩) s = .next (t.setCp (.ended true false g.1)))) ∧
  (∀ (n : WinIdx) (off : Nat) (s : State), s.lines.resetHeld = false → s.mp = none → controllerWaiting s = false →
     let t := s.setLines { s.lines with mpAck := false, mpFail := false }
     let a := (s.win[n]).record.base + BitVec.ofNat 22 off
     let m := s.image.marksAt ((s.win[n]).record.imageBase.toNat + off)
     let data := s.image.word ((s.win[n]).record.imageBase.toNat + off)
     let gives := fun u => exec (.memoryPortGrant ⟨false, false⟩) s = .next u
     (s.sampler.state = .walking → s.sampler.position = some (n, off) → releaseWaiting s = false →
       (m.fresh = false → cutOffAddr s.win a = false →
         gives ((t.setMp (some ⟨a, false, 0b1111#4, 0, .walkRead n false⟩)).setBackground .sampler)) ∧
       (m.fresh = true ∨ cutOffAddr s.win a = true →
         gives (walkOn t))) ∧
     (samplerRequest s ≠ .waiting → ∀ r rest, s.release.queue = r :: rest → r.stage = .flushing → s.release.retireDue = false →
       s.release.flushPos = some (n, off) → n ∈ r.flushSet →
       (m.owed ≠ 0 → cutOffAddr s.win a = false →
         gives ((t.setMp (some ⟨a, true, m.owed, data, .flushWord n false⟩)).setBackground .release)) ∧
       (m.owed = 0 ∨ cutOffAddr s.win a = true →
         gives (settleHead (t.setRelease { s.release with flushPos := some (n, off + 1) })))) ∧
     (samplerRequest s ≠ .waiting → ∀ r rest, s.release.queue = r :: rest → s.release.retireDue = false →
       (r.stage = .writing → r.entries = [] → gives (settleHead t)) ∧
       (r.stage = .flushing → (∀ m k, s.release.flushPos = some (m, k) → m ∉ r.flushSet) → gives (settleHead t))) ∧
     (samplerRequest s ≠ .waiting → s.release.queue = [] → s.fill.active = true → s.fill.phase = .words →
       ∀ ns, s.fill.list = n :: ns → s.fill.offset = off → cutOffAddr s.win a = true →
       (off + 1 < (s.win[n]).record.length.toNat → gives (t.setFill { s.fill with offset := off + 1 })) ∧
       ((s.win[n]).record.length.toNat ≤ off + 1 →
         (ns ≠ [] → gives (t.setFill { s.fill with list := ns, offset := 0 })) ∧
         (ns = [] → s.reissue.resuming = false → gives (t.setFill { s.fill with
           list := [], offset := 0, phase := if s.marker.enabled then .marker else .due })) ∧
         (ns = [] → s.reissue.resuming = true → gives (reissueOn (t.setFill ⟨[], 0, false, .words⟩))))) ∧
     (samplerRequest s ≠ .waiting → s.release.queue = [] → s.fill.active = false → s.reissue.resuming = true →
       s.reissue.phase = .words → s.reissue.position = some (n, off) →
       (m.valid ≠ 0 → cutOffAddr s.win a = false →
         gives ((t.setMp (some ⟨a, true, m.valid, data, .reissueWord n true⟩)).setBackground .release)) ∧
       (m.valid = 0 ∨ cutOffAddr s.win a = true →
         gives (reissueFrom n (off + 1) (t.setReissue { s.reissue with position := some (n, off + 1) })))))

/-- The arbiter's order: nothing is granted while an access is in flight or a line is asserted; a waiting controller access goes
first; of the two background requesters, where both wait, the one that did not have the previous background grant goes, and
where one waits, that one (R2, R97). Whose request waits: the controller's where its access waits for service and its address is in
no window cut off from memory; the sampler's where the walk stands at a word and its read is not in flight; the release engine's
where the head record, a fill or a reissue has work left to do (Table 5-1, Table 6-5, R98; log 20, and log 30 for the controller's). -/
def Obligations.GrantOrder : Prop :=
  (∀ s : State,
    let cutOff := fun a : Addr =>
      ∃ n : WinIdx, (s.win[n]).covers a = true ∧ ((s.win[n]).freeze = .frozen ∨ (s.win[n]).freeze = .thawPending)
    (∀ a, cutOffAddr s.win a = true ↔ cutOff a) ∧
    (controllerWaiting s = true ↔ ∃ o k, s.cp = .outstanding o ∧ o.wait = .service k ∧ ¬cutOff o.access.addr) ∧
    (samplerRequest s = .waiting ↔ s.sampler.state = .walking ∧ s.sampler.position ≠ none ∧
      ∀ p n x, s.mp = some p → p.owner ≠ .walkRead n x) ∧
    (releaseWaiting s = true ↔ (s.release.queue ≠ [] ∧ s.release.retireDue = false) ∨
      (s.release.queue = [] ∧ s.fill.active = true ∧ s.fill.phase ≠ .due) ∨
      (s.release.queue = [] ∧ s.fill.active = false ∧ s.reissue.resuming = true ∧ s.reissue.phase ≠ .due))) ∧
  ∀ (lines : PortLines) (s : State), s.lines.resetHeld = false →
    let t := s.setLines { s.lines with mpAck := lines.ack, mpFail := lines.fail }
    let grants := fun u => exec (.memoryPortGrant lines) s = .next u
    (s.mp ≠ none ∨ lines.ack = true ∨ lines.fail = true → grants t) ∧
    (s.mp = none → lines.ack = false → lines.fail = false →
      (controllerWaiting s = true → grants (grantController t)) ∧
      (controllerWaiting s = false → releaseWaiting s = true → samplerRequest s = .waiting → s.background = .sampler →
        grants (grantRelease t)) ∧
      (controllerWaiting s = false → releaseWaiting s = true → samplerRequest s = .waiting → s.background = .release →
        grants (grantSampler t)) ∧
      (controllerWaiting s = false → releaseWaiting s = true → samplerRequest s ≠ .waiting → grants (grantRelease t)) ∧
      (controllerWaiting s = false → releaseWaiting s = false → samplerRequest s = .waiting → grants (grantSampler t)) ∧
      (controllerWaiting s = false → releaseWaiting s = false → samplerRequest s ≠ .waiting → grants t))

/-- No step begins an access to a word of a window that is FROZEN or THAW-PENDING: neither a grant nor an access that is granted the
free port as it is taken, whoever asks for it (R98, R15). -/
def Obligations.NoAccessIntoFrozenWindow : Prop :=
  ∀ (s t : State) (p : PortAccess), s.mp = none → step s = .next t → t.mp = some p →
    ∀ n : WinIdx, (s.win[n]).covers p.addr = true → (s.win[n]).freeze ≠ .frozen ∧ (s.win[n]).freeze ≠ .thawPending

/-- The end of a pass: by success CP-ACK, with the data for a read; by failure, with MP-FAIL, both lines or after 20 µs, CP-FAIL
with zero, and MEMORY latches (R2, R3, R99). A response with no access in flight is ignored: the lines are taken as found and
nothing ends (R2). The end of a merged read: the missing lanes are those of MP-D and the others those gathered in the bridge; by
failure CP-FAIL with zero, and no lane found is returned (R64). The end of an access that a RESET command has discarded: its result
is nobody's, no byte or mark of the image changes, and a failure latches MEMORY; the access that waited for it is passed anew as in
IDLE, with no effect of its own had (R174; log 9), and where a START has been taken in between it is routed from IDLE to the mode
then in force (R15, log 27). -/
def Obligations.ControllerAccessEnds : Prop :=
  (∀ (o : Outstanding) (p : PortAccess) (e : AccessEnd) (s : State), s.lines.resetHeld = false → s.mp = some p →
     s.cp = .outstanding o →
     let ends := fun c => exec e.command s = .next (followLevel .stageLow (e.latches ((e.closes s).setCp c)))
     (p.owner = .pass →
       (e.good = true → ends (.ended true false (if p.write = true then 0 else e.data))) ∧
       (e.good = false → ends (.ended false true 0))) ∧
     (∀ gathered missing, p.owner = .merged gathered missing →
       (e.good = true → ∃ v, ends (.ended true false v) ∧
         ∀ k : Fin 4, lane k.val v = if missing[k] = true then lane k.val e.data else lane k.val gathered) ∧
       (e.good = false → ends (.ended false true 0)))) ∧
  (∀ (p : PortAccess) (e : AccessEnd) (s : State), s.lines.resetHeld = false → s.mp = some p → p.owner = .discarded →
     let gives := fun u => exec e.command s = .next (followLevel .stageLow (e.latches u))
     let kept := ∃ t, exec e.command s = .next t ∧ t.image = s.image ∧ t.mp = none ∧
       (e.good = false → t.causes.flag .memory = true)
     ((∀ o, s.cp = .outstanding o → o.wait ≠ .afterDiscard) → gives (e.closes s) ∧ kept) ∧
     (∀ a c taken, s.cp = .outstanding ⟨a, c, .afterDiscard, taken⟩ →
       let anew := (e.closes s).setCp (.outstanding ⟨a, c, .service .pass, false⟩)
       (s.ctl.mode = .idle → gives anew ∧ kept) ∧
       gives (reroute (s.setCtl { s.ctl with mode := .idle }) anew))) ∧
  (∀ (lines : PortLines) (data : Word) (s : State), s.lines.resetHeld = false → s.mp = none →
     exec (.memoryPortAccessEnd lines data) s = .next (s.setLines { s.lines with mpAck := lines.ack, mpFail := lines.fail }) ∧
     exec .memoryPortTimeout s = .next s)

/-- The end of a write to an output window that passed in ARMED, or of a torn write-through, by success or failure: the enabled
lanes stand in the image, valid and not owed; no other byte or mark changes (R44, R66, R99). -/
def Obligations.WindowWriteEnds : Prop :=
  ∀ (n : WinIdx) (e : AccessEnd) (p : PortAccess) (s : State) (w : Nat), s.lines.resetHeld = false → s.mp = some p →
    (p.owner = .passImage n ∨ p.owner = .torn n) → s.image.wf → imageWord s.win .output n p.addr = some w →
    ∃ st : Store,
      exec e.command s =
        .next (followLevel .stageLow (e.latches (((e.closes s).setImage st).setCp (.ended e.good (!e.good) 0)))) ∧
      (∀ (j : Nat) (k : Fin 4), st.byte (4 * j + k.val) =
        if j = w ∧ p.enables[k] = true then lane k.val p.data else s.image.byte (4 * j + k.val)) ∧
      (∀ j : Nat, st.marksAt j =
        if j = w then { s.image.marksAt w with
          valid := (s.image.marksAt w).valid ||| p.enables, owed := (s.image.marksAt w).owed &&& ~~~p.enables }
        else s.image.marksAt j)

/-- The end of a priority fetch or a walk read by success: the word stands in the input slice with HELD, and with FRESH unless a
mark or SAFE entry has crossed a walk read; a fetch, or a read that shares the walk read, gets the data. By failure nothing is
stored and MEMORY latches. In both cases the walk moves on, unless a mark or SAFE entry has crossed its read, or the failure brings
SAFE entry (log 8); and it moves to the next word that is not FRESH, in ascending address and window, or finishes with sampling-done
(R76 to R78, R82, R83, R86). -/
def Obligations.InputReadEnds : Prop :=
  (∀ (n : WinIdx) (off : Nat) (s : State), OrderInv s → s.sampler.position = some (n, off) →
     walkOn s = s.setSampler (walkOn s).sampler ∧ WalkComesTo s.win s.image (NotBefore n (off + 1)) s.sampler (walkOn s).sampler) ∧
  (∀ (n : WinIdx) (stale : Bool) (e : AccessEnd) (p : PortAccess) (s : State), s.lines.resetHeld = false → s.mp = some p →
     p.owner = .walkRead n stale →
     ∃ st : Store,
       let u := ((e.closes s).setImage st).setCp (match s.cp with
         | .outstanding ⟨_, _, .shared, _⟩ => .ended e.good (!e.good) e.data
         | c => c)
       (e.good = false → st = s.image) ∧
       (e.goesOn s → stale = false → exec e.command s = .next (followLevel .stageLow (walkOn (e.latches u)))) ∧
       (e.goesOn s → stale = true → exec e.command s = .next (followLevel .stageLow (e.latches u))) ∧
       (¬e.goesOn s → exec e.command s = .next (followLevel .stageLow (e.latches u)))) ∧
  (∀ (n : WinIdx) (e : AccessEnd) (p : PortAccess) (s : State), s.lines.resetHeld = false → s.mp = some p → p.owner = .fetch n →
     ∃ st : Store, (e.good = false → st = s.image) ∧ exec e.command s = .next (followLevel .stageLow
       (e.latches (((e.closes s).setImage st).setCp (.ended e.good (!e.good) e.data))))) ∧
  ∀ (n : WinIdx) (data : Word) (p : PortAccess) (s : State) (w : Nat), s.lines.resetHeld = false → s.mp = some p → s.image.wf →
    imageWord s.win .input n p.addr = some w →
    let stored := fun (st : Store) (fresh : Bool) =>
      (∀ (j : Nat) (k : Fin 4), st.byte (4 * j + k.val) = if j = w then lane k.val data else s.image.byte (4 * j + k.val)) ∧
      (∀ j : Nat, st.marksAt j =
        if j = w then { s.image.marksAt w with held := true, fresh := (s.image.marksAt w).fresh || fresh } else s.image.marksAt j)
    (p.owner = .fetch n → ∃ t, exec (.memoryPortAccessEnd ⟨true, false⟩ data) s = .next t ∧ stored t.image true ∧
      t.cp = .ended true false data ∧ t.mp = none) ∧
    (∀ stale, p.owner = .walkRead n stale →
      ∃ t, exec (.memoryPortAccessEnd ⟨true, false⟩ data) s = .next t ∧ stored t.image (!stale) ∧ t.mp = none ∧
        (∀ a c e, s.cp = .outstanding ⟨a, c, .shared, e⟩ → t.cp = .ended true false data)) ∧
    (∀ e : AccessEnd, e.good = false → p.owner = .fetch n ∨ (∃ stale, p.owner = .walkRead n stale) →
      ∃ t, exec e.command s = .next t ∧ t.image = s.image ∧ t.causes.flag .memory = true ∧ t.mp = none ∧
        (p.owner = .fetch n ∨ (∃ a c x, s.cp = .outstanding ⟨a, c, .shared, x⟩) → t.cp = .ended false true 0))

/-- The end of a release write of an entry, by success, by MP-FAIL or after 20 µs: the head's first entry leaves its record and is
freed, owed is cleared on its lanes, and the record goes on, after its last entry to its next stage; an entry that a purge has
taken out is freed and its owed stays as the purge set it; one whose record SAFE entry dropped has owed cleared (R53, R61, R90,
R91, R100, R102). A failure latches MEMORY; where that enters SAFE or ends a reissue nothing goes on (log 8). -/
def Obligations.EntryWriteEnds : Prop :=
  (∀ (n : WinIdx) (e : AccessEnd) (p : PortAccess) (s : State) (w : Nat), s.lines.resetHeld = false → s.mp = some p →
     s.image.wf → imageWord s.win .output n p.addr = some w →
     let gives := fun t => exec e.command s = .next (followLevel .stageLow t)
     (p.owner = .entry n .queued → ∀ r rest x xs, s.release.queue = r :: rest → r.entries = x :: xs →
       ∃ st : Store, OwedCleared s.image st w p.enables ∧
         let freed := ((e.closes s).setImage st).setRelease { s.release with queue := { r with entries := xs } :: rest }
         (e.goesOn s → gives (settleHead (e.latches freed))) ∧ (¬e.goesOn s → gives (e.latches freed))) ∧
     (p.owner = .entry n .dropped → ∃ st : Store, OwedCleared s.image st w p.enables ∧
       let done := (e.closes s).setImage st
       (e.goesOn s → gives (settleHead (e.latches done))) ∧ (¬e.goesOn s → gives (e.latches done))) ∧
     (p.owner = .entry n .purged →
       (e.goesOn s → gives (settleHead (e.latches (e.closes s)))) ∧ (¬e.goesOn s → gives (e.latches (e.closes s))) ∧
       queuedCount (e.closes s) + 1 = queuedCount s)) ∧
  (∀ (n : WinIdx) (data : Word) (p : PortAccess) (s : State) (r : BatchRecord) (rest : List BatchRecord) (e : Entry) (es : List Entry)
     (w : Nat), s.lines.resetHeld = false → s.mp = some p → p.owner = .entry n .queued → s.image.wf →
     imageWord s.win .output n p.addr = some w → s.release.queue = r :: rest → r.entries = e :: es → es ≠ [] →
     s.causes.actionSafe .stageLow = false →
     ∃ t, exec (.memoryPortAccessEnd ⟨true, false⟩ data) s = .next t ∧ t.mp = none ∧
       t.release.queue = { r with entries := es, stage := .writing } :: rest ∧ OwedCleared s.image t.image w p.enables ∧
       freeCount t = Config.poolSize - openCount s - (queuedCount s - 1))

/-- The end of the release engine's other writes, by success, by MP-FAIL or after 20 µs. A flush, fill or reissue word: owed is
cleared on the lanes written, unless the purge has withdrawn a flush word's window, and the work goes on with the next word (R53,
R92, R100, R138, R147). The last fill word leads to the next window, and then to the marker, to the completion, or back to the
reissue (R138, R139, R149). A marker: the record's retirement, the fill's or the reissue's completion is due (R93, R139, R148;
due, and not yet taken, by log 19). A write whose work has been given up brings nothing on (R150). A failure latches MEMORY; where
that enters SAFE or ends a reissue nothing goes on (log 8). -/
def Obligations.ReleaseWritesEnd : Prop :=
  (∀ (n : WinIdx) (off : Nat) (e : AccessEnd) (p : PortAccess) (s : State) (w : Nat), s.lines.resetHeld = false → s.mp = some p →
     s.image.wf → imageWord s.win .output n p.addr = some w →
     let goes := fun (u : State) (next : State → State) =>
       (e.goesOn s → exec e.command s = .next (followLevel .stageLow (next (e.latches u)))) ∧
       (¬e.goesOn s → exec e.command s = .next (followLevel .stageLow (e.latches u)))
     (p.owner = .flushWord n true → goes (e.closes s) settleHead) ∧
     (p.owner = .flushWord n false → s.release.flushPos = some (n, off) →
       ∃ st : Store, OwedCleared s.image st w p.enables ∧
         goes ((e.closes s).setImage st) fun u => settleHead (u.setRelease { s.release with flushPos := some (n, off + 1) })) ∧
     (p.owner = .fillWord n false → ∃ st : Store, OwedCleared s.image st w 0b1111#4 ∧ goes ((e.closes s).setImage st) id) ∧
     (∀ ns, p.owner = .fillWord n true → s.fill.list = n :: ns → ∃ st : Store, OwedCleared s.image st w 0b1111#4 ∧
       let u := (e.closes s).setImage st
       (s.fill.offset + 1 < (s.win[n]).words → goes u fun u => u.setFill { s.fill with offset := s.fill.offset + 1 }) ∧
       ((s.win[n]).words ≤ s.fill.offset + 1 →
         (ns ≠ [] → goes u fun u => u.setFill { s.fill with list := ns, offset := 0 }) ∧
         (ns = [] → s.reissue.resuming = false → goes u fun u => u.setFill { s.fill with
           list := [], offset := 0, phase := if s.marker.enabled then .marker else .due }) ∧
         (ns = [] → s.reissue.resuming = true → goes u fun u => reissueOn (u.setFill ⟨[], 0, false, .words⟩)))) ∧
     (p.owner = .reissueWord n false → ∃ st : Store, OwedCleared s.image st w p.enables ∧ goes ((e.closes s).setImage st) id) ∧
     (p.owner = .reissueWord n true → s.reissue.position = some (n, off) → s.reissue.phase = .words →
       ∃ st : Store, OwedCleared s.image st w p.enables ∧
         let u := (e.closes s).setImage st
         let past := fun u : State => u.setReissue { s.reissue with position := some (n, off + 1) }
         (s.fill.active = true → goes u past) ∧ (s.fill.active = false → goes u fun u => reissueFrom n (off + 1) (past u)))) ∧
  (∀ (live : Bool) (e : AccessEnd) (p : PortAccess) (s : State), s.lines.resetHeld = false → s.mp = some p →
     let goes := fun (next : State → State) =>
       (e.goesOn s → exec e.command s = .next (followLevel .stageLow (next (e.latches (e.closes s))))) ∧
       (¬e.goesOn s → exec e.command s = .next (followLevel .stageLow (e.latches (e.closes s))))
     (p.owner = .batchMarker live →
       goes fun u => if live = true ∧ s.release.queue ≠ [] then u.setRelease { s.release with retireDue := true } else u) ∧
     (p.owner = .safeMarker live → goes fun u => if live = true then u.setFill { s.fill with phase := .due } else u) ∧
     (p.owner = .reissueMarker live → goes fun u => if live = true then u.setReissue { s.reissue with phase := .due } else u))

/-! ## Completions (06, 09) -/

/-- The head record's stages in their order: its entries; then the flush words with an owed lane, a window from its first word, or
from the place the flush has reached in the first of the set, a window with none left leaving the set; then, the flush set empty,
the marker where it is enabled; with none left its retirement is due, the record staying in the queue until that row is taken, which
is the model's choice (log 19; R90, R92, R93, R94). RETIREMENT: the head whose work has ended leaves the queue; where it was the
last, ENDING becomes IDLE, and otherwise the next record is the head and takes the first of its stages that applies (R30, R90, R94).
What waits on it comes about with it: a mark stalled in RUN has its boundary, the write stalled in ENDING passes when the last
record has gone, and any other access is routed anew where the mode has changed (R14, R15, R24, R94; log 28). -/
def Obligations.HeadWorksAndRetires : Prop :=
  (∀ (s : State) (r : BatchRecord) (rest : List BatchRecord), s.release.queue = r :: rest →
     (r.entries ≠ [] → settleHead s = s.setRelease { s.release with queue := { r with stage := .writing } :: rest }) ∧
     (r.entries = [] →
       let start := fun (i : Nat) (n : WinIdx) => match s.release.flushPos with
         | some (m, off) => if i = 0 ∧ m = n then off else 0
         | none => 0
       let owed := fun (n : WinIdx) (k : Nat) => (s.image.marksAt ((s.win[n]).record.imageBase.toNat + k)).owed ≠ 0
       let flushed := fun (i : Nat) => ∀ n k, r.flushSet[i]? = some n → start i n ≤ k → k < (s.win[n]).record.length.toNat → ¬owed n k
       (∀ i n k, r.flushSet[i]? = some n → (∀ j, j < i → flushed j) → start i n ≤ k → k < (s.win[n]).record.length.toNat →
         owed n k → (∀ j, start i n ≤ j → j < k → ¬owed n j) →
         settleHead s = s.setRelease { s.release with
           queue := { r with stage := .flushing, flushSet := r.flushSet.drop i } :: rest, flushPos := some (n, k) }) ∧
       ((∀ i, flushed i) →
         (s.marker.enabled = true → settleHead s =
           s.setRelease { s.release with queue := { r with stage := .marking, flushSet := [] } :: rest, flushPos := none }) ∧
         (s.marker.enabled = false → settleHead s =
           s.setRelease { s.release with queue := { r with flushSet := [] } :: rest, flushPos := none, retireDue := true })))) ∧
  (∀ (s : State) (r : BatchRecord) (rest : List BatchRecord), s.release.queue = r :: rest → s.release.retireDue = true →
     let left := s.setRelease ⟨rest, none, false⟩
     let retired := if rest ≠ [] then settleHead left
       else if s.ctl.mode = .ending then left.setCtl { s.ctl with mode := .idle } else left
     ((∀ o, s.cp ≠ .outstanding o) → exec .retirement s = .next retired) ∧
     (∀ o, s.cp = .outstanding o → o.wait ≠ .markStall ∨ s.ctl.mode ≠ .run → exec .retirement s = .next (reroute s retired)) ∧
     (∀ a c taken, s.cp = .outstanding ⟨a, c, .markStall, taken⟩ → s.ctl.mode = .run → rest.length < 4 →
       let after := (boundary retired).setCp (.outstanding ⟨a, c, .service .pass, true⟩)
       (s.sampler.state ≠ .walking → exec .retirement s = .next (followLevel .stageLow after)) ∧
       (s.sampler.state = .walking → exec .retirement s = .next (followLevel .stageLow (latch .overrun after)))) ∧
     (∀ a n taken, s.cp = .outstanding ⟨a, .output n, .endingStall, taken⟩ → s.ctl.mode = .ending → rest = [] →
       exec .retirement s = .next (retired.setCp (.outstanding ⟨a, .output n, .service .pass, taken⟩))))

/-- SAFE_FILL_COMPLETE: a fill that has come to its end clears safe-filling, and goes on where a thaw has put a window in its list
(R139, R140). REISSUE_COMPLETE: the mode becomes ARMED with FIRST and TORN clear and timing restarted, the OPEN OUTPUT windows
that owe a byte join the first-flush set, the command in flight ends with OK, and a waiting access is routed anew (R32, R148, R169,
R15). Those windows are the OPEN OUTPUT ones with an owed byte in their image slice (R145, R148). -/
def Obligations.SafeWorkCompletes : Prop :=
  (∀ (s : State) (n : WinIdx), s.image.wf → (n ∈ owedOpenOutputs s.win s.image ↔
     (s.win[n]).defined = true ∧ (s.win[n]).record.kind = .output ∧ (s.win[n]).freeze = .opened ∧
       ∃ k, k < (s.win[n]).record.length.toNat ∧ (s.image.marksAt ((s.win[n]).record.imageBase.toNat + k)).owed ≠ 0)) ∧
  (∀ s : State, s.fill.active = true → s.fill.phase = .due →
     (s.fill.list = [] → exec .safeFillComplete s = .next (s.setFill ⟨[], 0, false, .words⟩)) ∧
     (s.fill.list ≠ [] → exec .safeFillComplete s = .next (s.setFill { s.fill with offset := 0, phase := .words }))) ∧
  (∀ s : State, s.reissue.resuming = true → s.reissue.phase = .due → s.fill.active = false →
     let t := ((((s.setReissue { s.reissue with resuming := false, position := none }).setCtl
       { s.ctl with mode := .armed, first := false, torn := false }).setTiming
         { s.timing with count := 0, running := true, wdLimit := 10 * s.timing.wdPeriod.toNat, wdState := .running }).setFreeze
         { s.freeze with firstFlush := joinWin s.freeze.firstFlush (owedOpenOutputs s.win s.image) }).setMg
           { s.mg with command := none, done := true, lastResult := { s.mg.lastResult with result := .ok } }
     exec .reissueComplete s = .next (reroute s t) ∧ (s.cp = .idle → exec .reissueComplete s = .next t))
end

