-- ==== Sys2Proof/Laws/State.lean ====
section
/-! SUPPORT. One lemma per field per update of State, each true by rfl, so that no proof unfolds a record update. -/

namespace Sys2Proof.Machine

section
variable (s : State) (x : List Instr)
@[simp] theorem State.setPending_pending : (s.setPending x).pending = x := rfl
@[simp] theorem State.setPending_lines : (s.setPending x).lines = s.lines := rfl
@[simp] theorem State.setPending_identity : (s.setPending x).identity = s.identity := rfl
@[simp] theorem State.setPending_cp : (s.setPending x).cp = s.cp := rfl
@[simp] theorem State.setPending_mp : (s.setPending x).mp = s.mp := rfl
@[simp] theorem State.setPending_background : (s.setPending x).background = s.background := rfl
@[simp] theorem State.setPending_win : (s.setPending x).win = s.win := rfl
@[simp] theorem State.setPending_mark : (s.setPending x).mark = s.mark := rfl
@[simp] theorem State.setPending_marker : (s.setPending x).marker = s.marker := rfl
@[simp] theorem State.setPending_ctl : (s.setPending x).ctl = s.ctl := rfl
@[simp] theorem State.setPending_pool : (s.setPending x).pool = s.pool := rfl
@[simp] theorem State.setPending_image : (s.setPending x).image = s.image := rfl
@[simp] theorem State.setPending_pointer : (s.setPending x).pointer = s.pointer := rfl
@[simp] theorem State.setPending_sampler : (s.setPending x).sampler = s.sampler := rfl
@[simp] theorem State.setPending_release : (s.setPending x).release = s.release := rfl
@[simp] theorem State.setPending_fill : (s.setPending x).fill = s.fill := rfl
@[simp] theorem State.setPending_reissue : (s.setPending x).reissue = s.reissue := rfl
@[simp] theorem State.setPending_freeze : (s.setPending x).freeze = s.freeze := rfl
@[simp] theorem State.setPending_causes : (s.setPending x).causes = s.causes := rfl
@[simp] theorem State.setPending_timing : (s.setPending x).timing = s.timing := rfl
@[simp] theorem State.setPending_mg : (s.setPending x).mg = s.mg := rfl
end

section
variable (s : State) (x : Lines)
@[simp] theorem State.setLines_pending : (s.setLines x).pending = s.pending := rfl
@[simp] theorem State.setLines_lines : (s.setLines x).lines = x := rfl
@[simp] theorem State.setLines_identity : (s.setLines x).identity = s.identity := rfl
@[simp] theorem State.setLines_cp : (s.setLines x).cp = s.cp := rfl
@[simp] theorem State.setLines_mp : (s.setLines x).mp = s.mp := rfl
@[simp] theorem State.setLines_background : (s.setLines x).background = s.background := rfl
@[simp] theorem State.setLines_win : (s.setLines x).win = s.win := rfl
@[simp] theorem State.setLines_mark : (s.setLines x).mark = s.mark := rfl
@[simp] theorem State.setLines_marker : (s.setLines x).marker = s.marker := rfl
@[simp] theorem State.setLines_ctl : (s.setLines x).ctl = s.ctl := rfl
@[simp] theorem State.setLines_pool : (s.setLines x).pool = s.pool := rfl
@[simp] theorem State.setLines_image : (s.setLines x).image = s.image := rfl
@[simp] theorem State.setLines_pointer : (s.setLines x).pointer = s.pointer := rfl
@[simp] theorem State.setLines_sampler : (s.setLines x).sampler = s.sampler := rfl
@[simp] theorem State.setLines_release : (s.setLines x).release = s.release := rfl
@[simp] theorem State.setLines_fill : (s.setLines x).fill = s.fill := rfl
@[simp] theorem State.setLines_reissue : (s.setLines x).reissue = s.reissue := rfl
@[simp] theorem State.setLines_freeze : (s.setLines x).freeze = s.freeze := rfl
@[simp] theorem State.setLines_causes : (s.setLines x).causes = s.causes := rfl
@[simp] theorem State.setLines_timing : (s.setLines x).timing = s.timing := rfl
@[simp] theorem State.setLines_mg : (s.setLines x).mg = s.mg := rfl
end

section
variable (s : State) (x : BitVec 3)
@[simp] theorem State.setIdentity_pending : (s.setIdentity x).pending = s.pending := rfl
@[simp] theorem State.setIdentity_lines : (s.setIdentity x).lines = s.lines := rfl
@[simp] theorem State.setIdentity_identity : (s.setIdentity x).identity = x := rfl
@[simp] theorem State.setIdentity_cp : (s.setIdentity x).cp = s.cp := rfl
@[simp] theorem State.setIdentity_mp : (s.setIdentity x).mp = s.mp := rfl
@[simp] theorem State.setIdentity_background : (s.setIdentity x).background = s.background := rfl
@[simp] theorem State.setIdentity_win : (s.setIdentity x).win = s.win := rfl
@[simp] theorem State.setIdentity_mark : (s.setIdentity x).mark = s.mark := rfl
@[simp] theorem State.setIdentity_marker : (s.setIdentity x).marker = s.marker := rfl
@[simp] theorem State.setIdentity_ctl : (s.setIdentity x).ctl = s.ctl := rfl
@[simp] theorem State.setIdentity_pool : (s.setIdentity x).pool = s.pool := rfl
@[simp] theorem State.setIdentity_image : (s.setIdentity x).image = s.image := rfl
@[simp] theorem State.setIdentity_pointer : (s.setIdentity x).pointer = s.pointer := rfl
@[simp] theorem State.setIdentity_sampler : (s.setIdentity x).sampler = s.sampler := rfl
@[simp] theorem State.setIdentity_release : (s.setIdentity x).release = s.release := rfl
@[simp] theorem State.setIdentity_fill : (s.setIdentity x).fill = s.fill := rfl
@[simp] theorem State.setIdentity_reissue : (s.setIdentity x).reissue = s.reissue := rfl
@[simp] theorem State.setIdentity_freeze : (s.setIdentity x).freeze = s.freeze := rfl
@[simp] theorem State.setIdentity_causes : (s.setIdentity x).causes = s.causes := rfl
@[simp] theorem State.setIdentity_timing : (s.setIdentity x).timing = s.timing := rfl
@[simp] theorem State.setIdentity_mg : (s.setIdentity x).mg = s.mg := rfl
end

section
variable (s : State) (x : CpState)
@[simp] theorem State.setCp_pending : (s.setCp x).pending = s.pending := rfl
@[simp] theorem State.setCp_lines : (s.setCp x).lines = s.lines := rfl
@[simp] theorem State.setCp_identity : (s.setCp x).identity = s.identity := rfl
@[simp] theorem State.setCp_cp : (s.setCp x).cp = x := rfl
@[simp] theorem State.setCp_mp : (s.setCp x).mp = s.mp := rfl
@[simp] theorem State.setCp_background : (s.setCp x).background = s.background := rfl
@[simp] theorem State.setCp_win : (s.setCp x).win = s.win := rfl
@[simp] theorem State.setCp_mark : (s.setCp x).mark = s.mark := rfl
@[simp] theorem State.setCp_marker : (s.setCp x).marker = s.marker := rfl
@[simp] theorem State.setCp_ctl : (s.setCp x).ctl = s.ctl := rfl
@[simp] theorem State.setCp_pool : (s.setCp x).pool = s.pool := rfl
@[simp] theorem State.setCp_image : (s.setCp x).image = s.image := rfl
@[simp] theorem State.setCp_pointer : (s.setCp x).pointer = s.pointer := rfl
@[simp] theorem State.setCp_sampler : (s.setCp x).sampler = s.sampler := rfl
@[simp] theorem State.setCp_release : (s.setCp x).release = s.release := rfl
@[simp] theorem State.setCp_fill : (s.setCp x).fill = s.fill := rfl
@[simp] theorem State.setCp_reissue : (s.setCp x).reissue = s.reissue := rfl
@[simp] theorem State.setCp_freeze : (s.setCp x).freeze = s.freeze := rfl
@[simp] theorem State.setCp_causes : (s.setCp x).causes = s.causes := rfl
@[simp] theorem State.setCp_timing : (s.setCp x).timing = s.timing := rfl
@[simp] theorem State.setCp_mg : (s.setCp x).mg = s.mg := rfl
end

section
variable (s : State) (x : Option PortAccess)
@[simp] theorem State.setMp_pending : (s.setMp x).pending = s.pending := rfl
@[simp] theorem State.setMp_lines : (s.setMp x).lines = s.lines := rfl
@[simp] theorem State.setMp_identity : (s.setMp x).identity = s.identity := rfl
@[simp] theorem State.setMp_cp : (s.setMp x).cp = s.cp := rfl
@[simp] theorem State.setMp_mp : (s.setMp x).mp = x := rfl
@[simp] theorem State.setMp_background : (s.setMp x).background = s.background := rfl
@[simp] theorem State.setMp_win : (s.setMp x).win = s.win := rfl
@[simp] theorem State.setMp_mark : (s.setMp x).mark = s.mark := rfl
@[simp] theorem State.setMp_marker : (s.setMp x).marker = s.marker := rfl
@[simp] theorem State.setMp_ctl : (s.setMp x).ctl = s.ctl := rfl
@[simp] theorem State.setMp_pool : (s.setMp x).pool = s.pool := rfl
@[simp] theorem State.setMp_image : (s.setMp x).image = s.image := rfl
@[simp] theorem State.setMp_pointer : (s.setMp x).pointer = s.pointer := rfl
@[simp] theorem State.setMp_sampler : (s.setMp x).sampler = s.sampler := rfl
@[simp] theorem State.setMp_release : (s.setMp x).release = s.release := rfl
@[simp] theorem State.setMp_fill : (s.setMp x).fill = s.fill := rfl
@[simp] theorem State.setMp_reissue : (s.setMp x).reissue = s.reissue := rfl
@[simp] theorem State.setMp_freeze : (s.setMp x).freeze = s.freeze := rfl
@[simp] theorem State.setMp_causes : (s.setMp x).causes = s.causes := rfl
@[simp] theorem State.setMp_timing : (s.setMp x).timing = s.timing := rfl
@[simp] theorem State.setMp_mg : (s.setMp x).mg = s.mg := rfl
end

section
variable (s : State) (x : Background)
@[simp] theorem State.setBackground_pending : (s.setBackground x).pending = s.pending := rfl
@[simp] theorem State.setBackground_lines : (s.setBackground x).lines = s.lines := rfl
@[simp] theorem State.setBackground_identity : (s.setBackground x).identity = s.identity := rfl
@[simp] theorem State.setBackground_cp : (s.setBackground x).cp = s.cp := rfl
@[simp] theorem State.setBackground_mp : (s.setBackground x).mp = s.mp := rfl
@[simp] theorem State.setBackground_background : (s.setBackground x).background = x := rfl
@[simp] theorem State.setBackground_win : (s.setBackground x).win = s.win := rfl
@[simp] theorem State.setBackground_mark : (s.setBackground x).mark = s.mark := rfl
@[simp] theorem State.setBackground_marker : (s.setBackground x).marker = s.marker := rfl
@[simp] theorem State.setBackground_ctl : (s.setBackground x).ctl = s.ctl := rfl
@[simp] theorem State.setBackground_pool : (s.setBackground x).pool = s.pool := rfl
@[simp] theorem State.setBackground_image : (s.setBackground x).image = s.image := rfl
@[simp] theorem State.setBackground_pointer : (s.setBackground x).pointer = s.pointer := rfl
@[simp] theorem State.setBackground_sampler : (s.setBackground x).sampler = s.sampler := rfl
@[simp] theorem State.setBackground_release : (s.setBackground x).release = s.release := rfl
@[simp] theorem State.setBackground_fill : (s.setBackground x).fill = s.fill := rfl
@[simp] theorem State.setBackground_reissue : (s.setBackground x).reissue = s.reissue := rfl
@[simp] theorem State.setBackground_freeze : (s.setBackground x).freeze = s.freeze := rfl
@[simp] theorem State.setBackground_causes : (s.setBackground x).causes = s.causes := rfl
@[simp] theorem State.setBackground_timing : (s.setBackground x).timing = s.timing := rfl
@[simp] theorem State.setBackground_mg : (s.setBackground x).mg = s.mg := rfl
end

section
variable (s : State) (x : Windows)
@[simp] theorem State.setWin_pending : (s.setWin x).pending = s.pending := rfl
@[simp] theorem State.setWin_lines : (s.setWin x).lines = s.lines := rfl
@[simp] theorem State.setWin_identity : (s.setWin x).identity = s.identity := rfl
@[simp] theorem State.setWin_cp : (s.setWin x).cp = s.cp := rfl
@[simp] theorem State.setWin_mp : (s.setWin x).mp = s.mp := rfl
@[simp] theorem State.setWin_background : (s.setWin x).background = s.background := rfl
@[simp] theorem State.setWin_win : (s.setWin x).win = x := rfl
@[simp] theorem State.setWin_mark : (s.setWin x).mark = s.mark := rfl
@[simp] theorem State.setWin_marker : (s.setWin x).marker = s.marker := rfl
@[simp] theorem State.setWin_ctl : (s.setWin x).ctl = s.ctl := rfl
@[simp] theorem State.setWin_pool : (s.setWin x).pool = s.pool := rfl
@[simp] theorem State.setWin_image : (s.setWin x).image = s.image := rfl
@[simp] theorem State.setWin_pointer : (s.setWin x).pointer = s.pointer := rfl
@[simp] theorem State.setWin_sampler : (s.setWin x).sampler = s.sampler := rfl
@[simp] theorem State.setWin_release : (s.setWin x).release = s.release := rfl
@[simp] theorem State.setWin_fill : (s.setWin x).fill = s.fill := rfl
@[simp] theorem State.setWin_reissue : (s.setWin x).reissue = s.reissue := rfl
@[simp] theorem State.setWin_freeze : (s.setWin x).freeze = s.freeze := rfl
@[simp] theorem State.setWin_causes : (s.setWin x).causes = s.causes := rfl
@[simp] theorem State.setWin_timing : (s.setWin x).timing = s.timing := rfl
@[simp] theorem State.setWin_mg : (s.setWin x).mg = s.mg := rfl
end

section
variable (s : State) (x : BusMark)
@[simp] theorem State.setMark_pending : (s.setMark x).pending = s.pending := rfl
@[simp] theorem State.setMark_lines : (s.setMark x).lines = s.lines := rfl
@[simp] theorem State.setMark_identity : (s.setMark x).identity = s.identity := rfl
@[simp] theorem State.setMark_cp : (s.setMark x).cp = s.cp := rfl
@[simp] theorem State.setMark_mp : (s.setMark x).mp = s.mp := rfl
@[simp] theorem State.setMark_background : (s.setMark x).background = s.background := rfl
@[simp] theorem State.setMark_win : (s.setMark x).win = s.win := rfl
@[simp] theorem State.setMark_mark : (s.setMark x).mark = x := rfl
@[simp] theorem State.setMark_marker : (s.setMark x).marker = s.marker := rfl
@[simp] theorem State.setMark_ctl : (s.setMark x).ctl = s.ctl := rfl
@[simp] theorem State.setMark_pool : (s.setMark x).pool = s.pool := rfl
@[simp] theorem State.setMark_image : (s.setMark x).image = s.image := rfl
@[simp] theorem State.setMark_pointer : (s.setMark x).pointer = s.pointer := rfl
@[simp] theorem State.setMark_sampler : (s.setMark x).sampler = s.sampler := rfl
@[simp] theorem State.setMark_release : (s.setMark x).release = s.release := rfl
@[simp] theorem State.setMark_fill : (s.setMark x).fill = s.fill := rfl
@[simp] theorem State.setMark_reissue : (s.setMark x).reissue = s.reissue := rfl
@[simp] theorem State.setMark_freeze : (s.setMark x).freeze = s.freeze := rfl
@[simp] theorem State.setMark_causes : (s.setMark x).causes = s.causes := rfl
@[simp] theorem State.setMark_timing : (s.setMark x).timing = s.timing := rfl
@[simp] theorem State.setMark_mg : (s.setMark x).mg = s.mg := rfl
end

section
variable (s : State) (x : BusMark)
@[simp] theorem State.setMarker_pending : (s.setMarker x).pending = s.pending := rfl
@[simp] theorem State.setMarker_lines : (s.setMarker x).lines = s.lines := rfl
@[simp] theorem State.setMarker_identity : (s.setMarker x).identity = s.identity := rfl
@[simp] theorem State.setMarker_cp : (s.setMarker x).cp = s.cp := rfl
@[simp] theorem State.setMarker_mp : (s.setMarker x).mp = s.mp := rfl
@[simp] theorem State.setMarker_background : (s.setMarker x).background = s.background := rfl
@[simp] theorem State.setMarker_win : (s.setMarker x).win = s.win := rfl
@[simp] theorem State.setMarker_mark : (s.setMarker x).mark = s.mark := rfl
@[simp] theorem State.setMarker_marker : (s.setMarker x).marker = x := rfl
@[simp] theorem State.setMarker_ctl : (s.setMarker x).ctl = s.ctl := rfl
@[simp] theorem State.setMarker_pool : (s.setMarker x).pool = s.pool := rfl
@[simp] theorem State.setMarker_image : (s.setMarker x).image = s.image := rfl
@[simp] theorem State.setMarker_pointer : (s.setMarker x).pointer = s.pointer := rfl
@[simp] theorem State.setMarker_sampler : (s.setMarker x).sampler = s.sampler := rfl
@[simp] theorem State.setMarker_release : (s.setMarker x).release = s.release := rfl
@[simp] theorem State.setMarker_fill : (s.setMarker x).fill = s.fill := rfl
@[simp] theorem State.setMarker_reissue : (s.setMarker x).reissue = s.reissue := rfl
@[simp] theorem State.setMarker_freeze : (s.setMarker x).freeze = s.freeze := rfl
@[simp] theorem State.setMarker_causes : (s.setMarker x).causes = s.causes := rfl
@[simp] theorem State.setMarker_timing : (s.setMarker x).timing = s.timing := rfl
@[simp] theorem State.setMarker_mg : (s.setMarker x).mg = s.mg := rfl
end

section
variable (s : State) (x : Control)
@[simp] theorem State.setCtl_pending : (s.setCtl x).pending = s.pending := rfl
@[simp] theorem State.setCtl_lines : (s.setCtl x).lines = s.lines := rfl
@[simp] theorem State.setCtl_identity : (s.setCtl x).identity = s.identity := rfl
@[simp] theorem State.setCtl_cp : (s.setCtl x).cp = s.cp := rfl
@[simp] theorem State.setCtl_mp : (s.setCtl x).mp = s.mp := rfl
@[simp] theorem State.setCtl_background : (s.setCtl x).background = s.background := rfl
@[simp] theorem State.setCtl_win : (s.setCtl x).win = s.win := rfl
@[simp] theorem State.setCtl_mark : (s.setCtl x).mark = s.mark := rfl
@[simp] theorem State.setCtl_marker : (s.setCtl x).marker = s.marker := rfl
@[simp] theorem State.setCtl_ctl : (s.setCtl x).ctl = x := rfl
@[simp] theorem State.setCtl_pool : (s.setCtl x).pool = s.pool := rfl
@[simp] theorem State.setCtl_image : (s.setCtl x).image = s.image := rfl
@[simp] theorem State.setCtl_pointer : (s.setCtl x).pointer = s.pointer := rfl
@[simp] theorem State.setCtl_sampler : (s.setCtl x).sampler = s.sampler := rfl
@[simp] theorem State.setCtl_release : (s.setCtl x).release = s.release := rfl
@[simp] theorem State.setCtl_fill : (s.setCtl x).fill = s.fill := rfl
@[simp] theorem State.setCtl_reissue : (s.setCtl x).reissue = s.reissue := rfl
@[simp] theorem State.setCtl_freeze : (s.setCtl x).freeze = s.freeze := rfl
@[simp] theorem State.setCtl_causes : (s.setCtl x).causes = s.causes := rfl
@[simp] theorem State.setCtl_timing : (s.setCtl x).timing = s.timing := rfl
@[simp] theorem State.setCtl_mg : (s.setCtl x).mg = s.mg := rfl
end

section
variable (s : State) (x : Pool)
@[simp] theorem State.setPool_pending : (s.setPool x).pending = s.pending := rfl
@[simp] theorem State.setPool_lines : (s.setPool x).lines = s.lines := rfl
@[simp] theorem State.setPool_identity : (s.setPool x).identity = s.identity := rfl
@[simp] theorem State.setPool_cp : (s.setPool x).cp = s.cp := rfl
@[simp] theorem State.setPool_mp : (s.setPool x).mp = s.mp := rfl
@[simp] theorem State.setPool_background : (s.setPool x).background = s.background := rfl
@[simp] theorem State.setPool_win : (s.setPool x).win = s.win := rfl
@[simp] theorem State.setPool_mark : (s.setPool x).mark = s.mark := rfl
@[simp] theorem State.setPool_marker : (s.setPool x).marker = s.marker := rfl
@[simp] theorem State.setPool_ctl : (s.setPool x).ctl = s.ctl := rfl
@[simp] theorem State.setPool_pool : (s.setPool x).pool = x := rfl
@[simp] theorem State.setPool_image : (s.setPool x).image = s.image := rfl
@[simp] theorem State.setPool_pointer : (s.setPool x).pointer = s.pointer := rfl
@[simp] theorem State.setPool_sampler : (s.setPool x).sampler = s.sampler := rfl
@[simp] theorem State.setPool_release : (s.setPool x).release = s.release := rfl
@[simp] theorem State.setPool_fill : (s.setPool x).fill = s.fill := rfl
@[simp] theorem State.setPool_reissue : (s.setPool x).reissue = s.reissue := rfl
@[simp] theorem State.setPool_freeze : (s.setPool x).freeze = s.freeze := rfl
@[simp] theorem State.setPool_causes : (s.setPool x).causes = s.causes := rfl
@[simp] theorem State.setPool_timing : (s.setPool x).timing = s.timing := rfl
@[simp] theorem State.setPool_mg : (s.setPool x).mg = s.mg := rfl
end

section
variable (s : State) (x : Store)
@[simp] theorem State.setImage_pending : (s.setImage x).pending = s.pending := rfl
@[simp] theorem State.setImage_lines : (s.setImage x).lines = s.lines := rfl
@[simp] theorem State.setImage_identity : (s.setImage x).identity = s.identity := rfl
@[simp] theorem State.setImage_cp : (s.setImage x).cp = s.cp := rfl
@[simp] theorem State.setImage_mp : (s.setImage x).mp = s.mp := rfl
@[simp] theorem State.setImage_background : (s.setImage x).background = s.background := rfl
@[simp] theorem State.setImage_win : (s.setImage x).win = s.win := rfl
@[simp] theorem State.setImage_mark : (s.setImage x).mark = s.mark := rfl
@[simp] theorem State.setImage_marker : (s.setImage x).marker = s.marker := rfl
@[simp] theorem State.setImage_ctl : (s.setImage x).ctl = s.ctl := rfl
@[simp] theorem State.setImage_pool : (s.setImage x).pool = s.pool := rfl
@[simp] theorem State.setImage_image : (s.setImage x).image = x := rfl
@[simp] theorem State.setImage_pointer : (s.setImage x).pointer = s.pointer := rfl
@[simp] theorem State.setImage_sampler : (s.setImage x).sampler = s.sampler := rfl
@[simp] theorem State.setImage_release : (s.setImage x).release = s.release := rfl
@[simp] theorem State.setImage_fill : (s.setImage x).fill = s.fill := rfl
@[simp] theorem State.setImage_reissue : (s.setImage x).reissue = s.reissue := rfl
@[simp] theorem State.setImage_freeze : (s.setImage x).freeze = s.freeze := rfl
@[simp] theorem State.setImage_causes : (s.setImage x).causes = s.causes := rfl
@[simp] theorem State.setImage_timing : (s.setImage x).timing = s.timing := rfl
@[simp] theorem State.setImage_mg : (s.setImage x).mg = s.mg := rfl
end

section
variable (s : State) (x : BitVec 10)
@[simp] theorem State.setPointer_pending : (s.setPointer x).pending = s.pending := rfl
@[simp] theorem State.setPointer_lines : (s.setPointer x).lines = s.lines := rfl
@[simp] theorem State.setPointer_identity : (s.setPointer x).identity = s.identity := rfl
@[simp] theorem State.setPointer_cp : (s.setPointer x).cp = s.cp := rfl
@[simp] theorem State.setPointer_mp : (s.setPointer x).mp = s.mp := rfl
@[simp] theorem State.setPointer_background : (s.setPointer x).background = s.background := rfl
@[simp] theorem State.setPointer_win : (s.setPointer x).win = s.win := rfl
@[simp] theorem State.setPointer_mark : (s.setPointer x).mark = s.mark := rfl
@[simp] theorem State.setPointer_marker : (s.setPointer x).marker = s.marker := rfl
@[simp] theorem State.setPointer_ctl : (s.setPointer x).ctl = s.ctl := rfl
@[simp] theorem State.setPointer_pool : (s.setPointer x).pool = s.pool := rfl
@[simp] theorem State.setPointer_image : (s.setPointer x).image = s.image := rfl
@[simp] theorem State.setPointer_pointer : (s.setPointer x).pointer = x := rfl
@[simp] theorem State.setPointer_sampler : (s.setPointer x).sampler = s.sampler := rfl
@[simp] theorem State.setPointer_release : (s.setPointer x).release = s.release := rfl
@[simp] theorem State.setPointer_fill : (s.setPointer x).fill = s.fill := rfl
@[simp] theorem State.setPointer_reissue : (s.setPointer x).reissue = s.reissue := rfl
@[simp] theorem State.setPointer_freeze : (s.setPointer x).freeze = s.freeze := rfl
@[simp] theorem State.setPointer_causes : (s.setPointer x).causes = s.causes := rfl
@[simp] theorem State.setPointer_timing : (s.setPointer x).timing = s.timing := rfl
@[simp] theorem State.setPointer_mg : (s.setPointer x).mg = s.mg := rfl
end

section
variable (s : State) (x : Sampler)
@[simp] theorem State.setSampler_pending : (s.setSampler x).pending = s.pending := rfl
@[simp] theorem State.setSampler_lines : (s.setSampler x).lines = s.lines := rfl
@[simp] theorem State.setSampler_identity : (s.setSampler x).identity = s.identity := rfl
@[simp] theorem State.setSampler_cp : (s.setSampler x).cp = s.cp := rfl
@[simp] theorem State.setSampler_mp : (s.setSampler x).mp = s.mp := rfl
@[simp] theorem State.setSampler_background : (s.setSampler x).background = s.background := rfl
@[simp] theorem State.setSampler_win : (s.setSampler x).win = s.win := rfl
@[simp] theorem State.setSampler_mark : (s.setSampler x).mark = s.mark := rfl
@[simp] theorem State.setSampler_marker : (s.setSampler x).marker = s.marker := rfl
@[simp] theorem State.setSampler_ctl : (s.setSampler x).ctl = s.ctl := rfl
@[simp] theorem State.setSampler_pool : (s.setSampler x).pool = s.pool := rfl
@[simp] theorem State.setSampler_image : (s.setSampler x).image = s.image := rfl
@[simp] theorem State.setSampler_pointer : (s.setSampler x).pointer = s.pointer := rfl
@[simp] theorem State.setSampler_sampler : (s.setSampler x).sampler = x := rfl
@[simp] theorem State.setSampler_release : (s.setSampler x).release = s.release := rfl
@[simp] theorem State.setSampler_fill : (s.setSampler x).fill = s.fill := rfl
@[simp] theorem State.setSampler_reissue : (s.setSampler x).reissue = s.reissue := rfl
@[simp] theorem State.setSampler_freeze : (s.setSampler x).freeze = s.freeze := rfl
@[simp] theorem State.setSampler_causes : (s.setSampler x).causes = s.causes := rfl
@[simp] theorem State.setSampler_timing : (s.setSampler x).timing = s.timing := rfl
@[simp] theorem State.setSampler_mg : (s.setSampler x).mg = s.mg := rfl
end

section
variable (s : State) (x : Release)
@[simp] theorem State.setRelease_pending : (s.setRelease x).pending = s.pending := rfl
@[simp] theorem State.setRelease_lines : (s.setRelease x).lines = s.lines := rfl
@[simp] theorem State.setRelease_identity : (s.setRelease x).identity = s.identity := rfl
@[simp] theorem State.setRelease_cp : (s.setRelease x).cp = s.cp := rfl
@[simp] theorem State.setRelease_mp : (s.setRelease x).mp = s.mp := rfl
@[simp] theorem State.setRelease_background : (s.setRelease x).background = s.background := rfl
@[simp] theorem State.setRelease_win : (s.setRelease x).win = s.win := rfl
@[simp] theorem State.setRelease_mark : (s.setRelease x).mark = s.mark := rfl
@[simp] theorem State.setRelease_marker : (s.setRelease x).marker = s.marker := rfl
@[simp] theorem State.setRelease_ctl : (s.setRelease x).ctl = s.ctl := rfl
@[simp] theorem State.setRelease_pool : (s.setRelease x).pool = s.pool := rfl
@[simp] theorem State.setRelease_image : (s.setRelease x).image = s.image := rfl
@[simp] theorem State.setRelease_pointer : (s.setRelease x).pointer = s.pointer := rfl
@[simp] theorem State.setRelease_sampler : (s.setRelease x).sampler = s.sampler := rfl
@[simp] theorem State.setRelease_release : (s.setRelease x).release = x := rfl
@[simp] theorem State.setRelease_fill : (s.setRelease x).fill = s.fill := rfl
@[simp] theorem State.setRelease_reissue : (s.setRelease x).reissue = s.reissue := rfl
@[simp] theorem State.setRelease_freeze : (s.setRelease x).freeze = s.freeze := rfl
@[simp] theorem State.setRelease_causes : (s.setRelease x).causes = s.causes := rfl
@[simp] theorem State.setRelease_timing : (s.setRelease x).timing = s.timing := rfl
@[simp] theorem State.setRelease_mg : (s.setRelease x).mg = s.mg := rfl
end

section
variable (s : State) (x : Fill)
@[simp] theorem State.setFill_pending : (s.setFill x).pending = s.pending := rfl
@[simp] theorem State.setFill_lines : (s.setFill x).lines = s.lines := rfl
@[simp] theorem State.setFill_identity : (s.setFill x).identity = s.identity := rfl
@[simp] theorem State.setFill_cp : (s.setFill x).cp = s.cp := rfl
@[simp] theorem State.setFill_mp : (s.setFill x).mp = s.mp := rfl
@[simp] theorem State.setFill_background : (s.setFill x).background = s.background := rfl
@[simp] theorem State.setFill_win : (s.setFill x).win = s.win := rfl
@[simp] theorem State.setFill_mark : (s.setFill x).mark = s.mark := rfl
@[simp] theorem State.setFill_marker : (s.setFill x).marker = s.marker := rfl
@[simp] theorem State.setFill_ctl : (s.setFill x).ctl = s.ctl := rfl
@[simp] theorem State.setFill_pool : (s.setFill x).pool = s.pool := rfl
@[simp] theorem State.setFill_image : (s.setFill x).image = s.image := rfl
@[simp] theorem State.setFill_pointer : (s.setFill x).pointer = s.pointer := rfl
@[simp] theorem State.setFill_sampler : (s.setFill x).sampler = s.sampler := rfl
@[simp] theorem State.setFill_release : (s.setFill x).release = s.release := rfl
@[simp] theorem State.setFill_fill : (s.setFill x).fill = x := rfl
@[simp] theorem State.setFill_reissue : (s.setFill x).reissue = s.reissue := rfl
@[simp] theorem State.setFill_freeze : (s.setFill x).freeze = s.freeze := rfl
@[simp] theorem State.setFill_causes : (s.setFill x).causes = s.causes := rfl
@[simp] theorem State.setFill_timing : (s.setFill x).timing = s.timing := rfl
@[simp] theorem State.setFill_mg : (s.setFill x).mg = s.mg := rfl
end

section
variable (s : State) (x : Reissue)
@[simp] theorem State.setReissue_pending : (s.setReissue x).pending = s.pending := rfl
@[simp] theorem State.setReissue_lines : (s.setReissue x).lines = s.lines := rfl
@[simp] theorem State.setReissue_identity : (s.setReissue x).identity = s.identity := rfl
@[simp] theorem State.setReissue_cp : (s.setReissue x).cp = s.cp := rfl
@[simp] theorem State.setReissue_mp : (s.setReissue x).mp = s.mp := rfl
@[simp] theorem State.setReissue_background : (s.setReissue x).background = s.background := rfl
@[simp] theorem State.setReissue_win : (s.setReissue x).win = s.win := rfl
@[simp] theorem State.setReissue_mark : (s.setReissue x).mark = s.mark := rfl
@[simp] theorem State.setReissue_marker : (s.setReissue x).marker = s.marker := rfl
@[simp] theorem State.setReissue_ctl : (s.setReissue x).ctl = s.ctl := rfl
@[simp] theorem State.setReissue_pool : (s.setReissue x).pool = s.pool := rfl
@[simp] theorem State.setReissue_image : (s.setReissue x).image = s.image := rfl
@[simp] theorem State.setReissue_pointer : (s.setReissue x).pointer = s.pointer := rfl
@[simp] theorem State.setReissue_sampler : (s.setReissue x).sampler = s.sampler := rfl
@[simp] theorem State.setReissue_release : (s.setReissue x).release = s.release := rfl
@[simp] theorem State.setReissue_fill : (s.setReissue x).fill = s.fill := rfl
@[simp] theorem State.setReissue_reissue : (s.setReissue x).reissue = x := rfl
@[simp] theorem State.setReissue_freeze : (s.setReissue x).freeze = s.freeze := rfl
@[simp] theorem State.setReissue_causes : (s.setReissue x).causes = s.causes := rfl
@[simp] theorem State.setReissue_timing : (s.setReissue x).timing = s.timing := rfl
@[simp] theorem State.setReissue_mg : (s.setReissue x).mg = s.mg := rfl
end

section
variable (s : State) (x : FreezeControl)
@[simp] theorem State.setFreeze_pending : (s.setFreeze x).pending = s.pending := rfl
@[simp] theorem State.setFreeze_lines : (s.setFreeze x).lines = s.lines := rfl
@[simp] theorem State.setFreeze_identity : (s.setFreeze x).identity = s.identity := rfl
@[simp] theorem State.setFreeze_cp : (s.setFreeze x).cp = s.cp := rfl
@[simp] theorem State.setFreeze_mp : (s.setFreeze x).mp = s.mp := rfl
@[simp] theorem State.setFreeze_background : (s.setFreeze x).background = s.background := rfl
@[simp] theorem State.setFreeze_win : (s.setFreeze x).win = s.win := rfl
@[simp] theorem State.setFreeze_mark : (s.setFreeze x).mark = s.mark := rfl
@[simp] theorem State.setFreeze_marker : (s.setFreeze x).marker = s.marker := rfl
@[simp] theorem State.setFreeze_ctl : (s.setFreeze x).ctl = s.ctl := rfl
@[simp] theorem State.setFreeze_pool : (s.setFreeze x).pool = s.pool := rfl
@[simp] theorem State.setFreeze_image : (s.setFreeze x).image = s.image := rfl
@[simp] theorem State.setFreeze_pointer : (s.setFreeze x).pointer = s.pointer := rfl
@[simp] theorem State.setFreeze_sampler : (s.setFreeze x).sampler = s.sampler := rfl
@[simp] theorem State.setFreeze_release : (s.setFreeze x).release = s.release := rfl
@[simp] theorem State.setFreeze_fill : (s.setFreeze x).fill = s.fill := rfl
@[simp] theorem State.setFreeze_reissue : (s.setFreeze x).reissue = s.reissue := rfl
@[simp] theorem State.setFreeze_freeze : (s.setFreeze x).freeze = x := rfl
@[simp] theorem State.setFreeze_causes : (s.setFreeze x).causes = s.causes := rfl
@[simp] theorem State.setFreeze_timing : (s.setFreeze x).timing = s.timing := rfl
@[simp] theorem State.setFreeze_mg : (s.setFreeze x).mg = s.mg := rfl
end

section
variable (s : State) (x : CauseUnit)
@[simp] theorem State.setCauses_pending : (s.setCauses x).pending = s.pending := rfl
@[simp] theorem State.setCauses_lines : (s.setCauses x).lines = s.lines := rfl
@[simp] theorem State.setCauses_identity : (s.setCauses x).identity = s.identity := rfl
@[simp] theorem State.setCauses_cp : (s.setCauses x).cp = s.cp := rfl
@[simp] theorem State.setCauses_mp : (s.setCauses x).mp = s.mp := rfl
@[simp] theorem State.setCauses_background : (s.setCauses x).background = s.background := rfl
@[simp] theorem State.setCauses_win : (s.setCauses x).win = s.win := rfl
@[simp] theorem State.setCauses_mark : (s.setCauses x).mark = s.mark := rfl
@[simp] theorem State.setCauses_marker : (s.setCauses x).marker = s.marker := rfl
@[simp] theorem State.setCauses_ctl : (s.setCauses x).ctl = s.ctl := rfl
@[simp] theorem State.setCauses_pool : (s.setCauses x).pool = s.pool := rfl
@[simp] theorem State.setCauses_image : (s.setCauses x).image = s.image := rfl
@[simp] theorem State.setCauses_pointer : (s.setCauses x).pointer = s.pointer := rfl
@[simp] theorem State.setCauses_sampler : (s.setCauses x).sampler = s.sampler := rfl
@[simp] theorem State.setCauses_release : (s.setCauses x).release = s.release := rfl
@[simp] theorem State.setCauses_fill : (s.setCauses x).fill = s.fill := rfl
@[simp] theorem State.setCauses_reissue : (s.setCauses x).reissue = s.reissue := rfl
@[simp] theorem State.setCauses_freeze : (s.setCauses x).freeze = s.freeze := rfl
@[simp] theorem State.setCauses_causes : (s.setCauses x).causes = x := rfl
@[simp] theorem State.setCauses_timing : (s.setCauses x).timing = s.timing := rfl
@[simp] theorem State.setCauses_mg : (s.setCauses x).mg = s.mg := rfl
end

section
variable (s : State) (x : Timing)
@[simp] theorem State.setTiming_pending : (s.setTiming x).pending = s.pending := rfl
@[simp] theorem State.setTiming_lines : (s.setTiming x).lines = s.lines := rfl
@[simp] theorem State.setTiming_identity : (s.setTiming x).identity = s.identity := rfl
@[simp] theorem State.setTiming_cp : (s.setTiming x).cp = s.cp := rfl
@[simp] theorem State.setTiming_mp : (s.setTiming x).mp = s.mp := rfl
@[simp] theorem State.setTiming_background : (s.setTiming x).background = s.background := rfl
@[simp] theorem State.setTiming_win : (s.setTiming x).win = s.win := rfl
@[simp] theorem State.setTiming_mark : (s.setTiming x).mark = s.mark := rfl
@[simp] theorem State.setTiming_marker : (s.setTiming x).marker = s.marker := rfl
@[simp] theorem State.setTiming_ctl : (s.setTiming x).ctl = s.ctl := rfl
@[simp] theorem State.setTiming_pool : (s.setTiming x).pool = s.pool := rfl
@[simp] theorem State.setTiming_image : (s.setTiming x).image = s.image := rfl
@[simp] theorem State.setTiming_pointer : (s.setTiming x).pointer = s.pointer := rfl
@[simp] theorem State.setTiming_sampler : (s.setTiming x).sampler = s.sampler := rfl
@[simp] theorem State.setTiming_release : (s.setTiming x).release = s.release := rfl
@[simp] theorem State.setTiming_fill : (s.setTiming x).fill = s.fill := rfl
@[simp] theorem State.setTiming_reissue : (s.setTiming x).reissue = s.reissue := rfl
@[simp] theorem State.setTiming_freeze : (s.setTiming x).freeze = s.freeze := rfl
@[simp] theorem State.setTiming_causes : (s.setTiming x).causes = s.causes := rfl
@[simp] theorem State.setTiming_timing : (s.setTiming x).timing = x := rfl
@[simp] theorem State.setTiming_mg : (s.setTiming x).mg = s.mg := rfl
end

section
variable (s : State) (x : Management)
@[simp] theorem State.setMg_pending : (s.setMg x).pending = s.pending := rfl
@[simp] theorem State.setMg_lines : (s.setMg x).lines = s.lines := rfl
@[simp] theorem State.setMg_identity : (s.setMg x).identity = s.identity := rfl
@[simp] theorem State.setMg_cp : (s.setMg x).cp = s.cp := rfl
@[simp] theorem State.setMg_mp : (s.setMg x).mp = s.mp := rfl
@[simp] theorem State.setMg_background : (s.setMg x).background = s.background := rfl
@[simp] theorem State.setMg_win : (s.setMg x).win = s.win := rfl
@[simp] theorem State.setMg_mark : (s.setMg x).mark = s.mark := rfl
@[simp] theorem State.setMg_marker : (s.setMg x).marker = s.marker := rfl
@[simp] theorem State.setMg_ctl : (s.setMg x).ctl = s.ctl := rfl
@[simp] theorem State.setMg_pool : (s.setMg x).pool = s.pool := rfl
@[simp] theorem State.setMg_image : (s.setMg x).image = s.image := rfl
@[simp] theorem State.setMg_pointer : (s.setMg x).pointer = s.pointer := rfl
@[simp] theorem State.setMg_sampler : (s.setMg x).sampler = s.sampler := rfl
@[simp] theorem State.setMg_release : (s.setMg x).release = s.release := rfl
@[simp] theorem State.setMg_fill : (s.setMg x).fill = s.fill := rfl
@[simp] theorem State.setMg_reissue : (s.setMg x).reissue = s.reissue := rfl
@[simp] theorem State.setMg_freeze : (s.setMg x).freeze = s.freeze := rfl
@[simp] theorem State.setMg_causes : (s.setMg x).causes = s.causes := rfl
@[simp] theorem State.setMg_timing : (s.setMg x).timing = s.timing := rfl
@[simp] theorem State.setMg_mg : (s.setMg x).mg = x := rfl
end

end Sys2Proof.Machine
end

