-- ==== Sys2Proof/Laws/Frames.lean ====
section
/-! SUPPORT. What each operation of the machine leaves alone: one lemma per operation, cited instead of unfolding it. Simp takes
each clause as a rewrite. -/

namespace Sys2Proof.Machine

@[simp] theorem endAccess_frame (ok : Bool) (d : Word) (s : State) :
      (endAccess ok d s).pending = s.pending ∧ (endAccess ok d s).lines = s.lines ∧
      (endAccess ok d s).identity = s.identity ∧ (endAccess ok d s).mp = s.mp ∧
      (endAccess ok d s).background = s.background ∧ (endAccess ok d s).win = s.win ∧
      (endAccess ok d s).mark = s.mark ∧ (endAccess ok d s).marker = s.marker ∧ (endAccess ok d s).ctl = s.ctl ∧
      (endAccess ok d s).pool = s.pool ∧ (endAccess ok d s).image = s.image ∧ (endAccess ok d s).pointer = s.pointer ∧
      (endAccess ok d s).sampler = s.sampler ∧ (endAccess ok d s).release = s.release ∧
      (endAccess ok d s).fill = s.fill ∧ (endAccess ok d s).reissue = s.reissue ∧
      (endAccess ok d s).freeze = s.freeze ∧ (endAccess ok d s).causes = s.causes ∧
      (endAccess ok d s).timing = s.timing ∧ (endAccess ok d s).mg = s.mg := by
  unfold endAccess
  try dsimp only
  (repeat' split) <;> simp

@[simp] theorem waitFor_frame (w : Wait) (o : Outstanding) (s : State) :
      (waitFor w o s).pending = s.pending ∧ (waitFor w o s).lines = s.lines ∧ (waitFor w o s).identity = s.identity ∧
      (waitFor w o s).mp = s.mp ∧ (waitFor w o s).background = s.background ∧ (waitFor w o s).win = s.win ∧
      (waitFor w o s).mark = s.mark ∧ (waitFor w o s).marker = s.marker ∧ (waitFor w o s).ctl = s.ctl ∧
      (waitFor w o s).pool = s.pool ∧ (waitFor w o s).image = s.image ∧ (waitFor w o s).pointer = s.pointer ∧
      (waitFor w o s).sampler = s.sampler ∧ (waitFor w o s).release = s.release ∧ (waitFor w o s).fill = s.fill ∧
      (waitFor w o s).reissue = s.reissue ∧ (waitFor w o s).freeze = s.freeze ∧ (waitFor w o s).causes = s.causes ∧
      (waitFor w o s).timing = s.timing ∧ (waitFor w o s).mg = s.mg := by
  unfold waitFor
  try dsimp only
  simp

@[simp] theorem samplePort_frame (l : PortLines) (s : State) :
      (samplePort l s).pending = s.pending ∧ (samplePort l s).identity = s.identity ∧ (samplePort l s).cp = s.cp ∧
      (samplePort l s).mp = s.mp ∧ (samplePort l s).background = s.background ∧ (samplePort l s).win = s.win ∧
      (samplePort l s).mark = s.mark ∧ (samplePort l s).marker = s.marker ∧ (samplePort l s).ctl = s.ctl ∧
      (samplePort l s).pool = s.pool ∧ (samplePort l s).image = s.image ∧ (samplePort l s).pointer = s.pointer ∧
      (samplePort l s).sampler = s.sampler ∧ (samplePort l s).release = s.release ∧ (samplePort l s).fill = s.fill ∧
      (samplePort l s).reissue = s.reissue ∧ (samplePort l s).freeze = s.freeze ∧ (samplePort l s).causes = s.causes ∧
      (samplePort l s).timing = s.timing ∧ (samplePort l s).mg = s.mg := by
  unfold samplePort
  try dsimp only
  simp

@[simp] theorem beginAccess_frame (p : PortAccess) (s : State) :
      (beginAccess p s).pending = s.pending ∧ (beginAccess p s).lines = s.lines ∧
      (beginAccess p s).identity = s.identity ∧ (beginAccess p s).cp = s.cp ∧
      (beginAccess p s).background = s.background ∧ (beginAccess p s).win = s.win ∧ (beginAccess p s).mark = s.mark ∧
      (beginAccess p s).marker = s.marker ∧ (beginAccess p s).ctl = s.ctl ∧ (beginAccess p s).pool = s.pool ∧
      (beginAccess p s).image = s.image ∧ (beginAccess p s).pointer = s.pointer ∧
      (beginAccess p s).sampler = s.sampler ∧ (beginAccess p s).release = s.release ∧
      (beginAccess p s).fill = s.fill ∧ (beginAccess p s).reissue = s.reissue ∧ (beginAccess p s).freeze = s.freeze ∧
      (beginAccess p s).causes = s.causes ∧ (beginAccess p s).timing = s.timing ∧ (beginAccess p s).mg = s.mg := by
  unfold beginAccess
  try dsimp only
  simp

@[simp] theorem setWindows_frame (ws : Windows) (s : State) :
      (setWindows ws s).pending = s.pending ∧ (setWindows ws s).lines = s.lines ∧
      (setWindows ws s).identity = s.identity ∧ (setWindows ws s).cp = s.cp ∧ (setWindows ws s).mp = s.mp ∧
      (setWindows ws s).background = s.background ∧ (setWindows ws s).mark = s.mark ∧
      (setWindows ws s).marker = s.marker ∧ (setWindows ws s).ctl = s.ctl ∧ (setWindows ws s).pool = s.pool ∧
      (setWindows ws s).image = s.image ∧ (setWindows ws s).pointer = s.pointer ∧
      (setWindows ws s).sampler = s.sampler ∧ (setWindows ws s).release = s.release ∧
      (setWindows ws s).fill = s.fill ∧ (setWindows ws s).reissue = s.reissue ∧ (setWindows ws s).causes = s.causes ∧
      (setWindows ws s).timing = s.timing ∧ (setWindows ws s).mg = s.mg := by
  unfold setWindows
  try dsimp only
  simp

@[simp] theorem storeSample_frame (n : WinIdx) (a : Addr) (v : Word) (f : Bool) (s : State) :
      (storeSample n a v f s).pending = s.pending ∧ (storeSample n a v f s).lines = s.lines ∧
      (storeSample n a v f s).identity = s.identity ∧ (storeSample n a v f s).cp = s.cp ∧
      (storeSample n a v f s).mp = s.mp ∧ (storeSample n a v f s).background = s.background ∧
      (storeSample n a v f s).win = s.win ∧ (storeSample n a v f s).mark = s.mark ∧
      (storeSample n a v f s).marker = s.marker ∧ (storeSample n a v f s).ctl = s.ctl ∧
      (storeSample n a v f s).pool = s.pool ∧ (storeSample n a v f s).pointer = s.pointer ∧
      (storeSample n a v f s).sampler = s.sampler ∧ (storeSample n a v f s).release = s.release ∧
      (storeSample n a v f s).fill = s.fill ∧ (storeSample n a v f s).reissue = s.reissue ∧
      (storeSample n a v f s).freeze = s.freeze ∧ (storeSample n a v f s).causes = s.causes ∧
      (storeSample n a v f s).timing = s.timing ∧ (storeSample n a v f s).mg = s.mg := by
  unfold storeSample
  try dsimp only
  (repeat' split) <;> simp

@[simp] theorem writeImage_frame (n : WinIdx) (a : Addr) (l : Lanes) (v : Word) (f : Marks → Marks) (s : State) :
      (writeImage n a l v f s).pending = s.pending ∧ (writeImage n a l v f s).lines = s.lines ∧
      (writeImage n a l v f s).identity = s.identity ∧ (writeImage n a l v f s).cp = s.cp ∧
      (writeImage n a l v f s).mp = s.mp ∧ (writeImage n a l v f s).background = s.background ∧
      (writeImage n a l v f s).win = s.win ∧ (writeImage n a l v f s).mark = s.mark ∧
      (writeImage n a l v f s).marker = s.marker ∧ (writeImage n a l v f s).ctl = s.ctl ∧
      (writeImage n a l v f s).pool = s.pool ∧ (writeImage n a l v f s).pointer = s.pointer ∧
      (writeImage n a l v f s).sampler = s.sampler ∧ (writeImage n a l v f s).release = s.release ∧
      (writeImage n a l v f s).fill = s.fill ∧ (writeImage n a l v f s).reissue = s.reissue ∧
      (writeImage n a l v f s).freeze = s.freeze ∧ (writeImage n a l v f s).causes = s.causes ∧
      (writeImage n a l v f s).timing = s.timing ∧ (writeImage n a l v f s).mg = s.mg := by
  unfold writeImage
  try dsimp only
  (repeat' split) <;> simp

@[simp] theorem walkOn_frame (s : State) :
      (walkOn s).pending = s.pending ∧ (walkOn s).lines = s.lines ∧ (walkOn s).identity = s.identity ∧
      (walkOn s).cp = s.cp ∧ (walkOn s).mp = s.mp ∧ (walkOn s).background = s.background ∧ (walkOn s).win = s.win ∧
      (walkOn s).mark = s.mark ∧ (walkOn s).marker = s.marker ∧ (walkOn s).ctl = s.ctl ∧ (walkOn s).pool = s.pool ∧
      (walkOn s).image = s.image ∧ (walkOn s).pointer = s.pointer ∧ (walkOn s).release = s.release ∧
      (walkOn s).fill = s.fill ∧ (walkOn s).reissue = s.reissue ∧ (walkOn s).freeze = s.freeze ∧
      (walkOn s).causes = s.causes ∧ (walkOn s).timing = s.timing ∧ (walkOn s).mg = s.mg := by
  unfold walkOn
  try dsimp only
  (repeat' split) <;> simp

@[simp] theorem walkBegin_frame (ws : Windows) (s : State) :
      (walkBegin ws s).pending = s.pending ∧ (walkBegin ws s).lines = s.lines ∧
      (walkBegin ws s).identity = s.identity ∧ (walkBegin ws s).cp = s.cp ∧
      (walkBegin ws s).background = s.background ∧ (walkBegin ws s).win = s.win ∧ (walkBegin ws s).mark = s.mark ∧
      (walkBegin ws s).marker = s.marker ∧ (walkBegin ws s).ctl = s.ctl ∧ (walkBegin ws s).pool = s.pool ∧
      (walkBegin ws s).pointer = s.pointer ∧ (walkBegin ws s).release = s.release ∧ (walkBegin ws s).fill = s.fill ∧
      (walkBegin ws s).reissue = s.reissue ∧ (walkBegin ws s).freeze = s.freeze ∧ (walkBegin ws s).causes = s.causes ∧
      (walkBegin ws s).timing = s.timing ∧ (walkBegin ws s).mg = s.mg := by
  unfold walkBegin
  try dsimp only
  simp

@[simp] theorem walkStop_frame (s : State) :
      (walkStop s).pending = s.pending ∧ (walkStop s).lines = s.lines ∧ (walkStop s).identity = s.identity ∧
      (walkStop s).cp = s.cp ∧ (walkStop s).background = s.background ∧ (walkStop s).win = s.win ∧
      (walkStop s).mark = s.mark ∧ (walkStop s).marker = s.marker ∧ (walkStop s).ctl = s.ctl ∧
      (walkStop s).pool = s.pool ∧ (walkStop s).pointer = s.pointer ∧ (walkStop s).release = s.release ∧
      (walkStop s).fill = s.fill ∧ (walkStop s).reissue = s.reissue ∧ (walkStop s).freeze = s.freeze ∧
      (walkStop s).causes = s.causes ∧ (walkStop s).timing = s.timing ∧ (walkStop s).mg = s.mg := by
  unfold walkStop
  try dsimp only
  simp

@[simp] theorem walkAbandon_frame (s : State) :
      (walkAbandon s).pending = s.pending ∧ (walkAbandon s).lines = s.lines ∧ (walkAbandon s).identity = s.identity ∧
      (walkAbandon s).cp = s.cp ∧ (walkAbandon s).background = s.background ∧ (walkAbandon s).win = s.win ∧
      (walkAbandon s).mark = s.mark ∧ (walkAbandon s).marker = s.marker ∧ (walkAbandon s).ctl = s.ctl ∧
      (walkAbandon s).pool = s.pool ∧ (walkAbandon s).image = s.image ∧ (walkAbandon s).pointer = s.pointer ∧
      (walkAbandon s).release = s.release ∧ (walkAbandon s).fill = s.fill ∧ (walkAbandon s).reissue = s.reissue ∧
      (walkAbandon s).freeze = s.freeze ∧ (walkAbandon s).causes = s.causes ∧ (walkAbandon s).timing = s.timing ∧
      (walkAbandon s).mg = s.mg := by
  unfold walkAbandon
  try dsimp only
  simp

@[simp] theorem grantSampler_frame (s : State) :
      (grantSampler s).pending = s.pending ∧ (grantSampler s).lines = s.lines ∧
      (grantSampler s).identity = s.identity ∧ (grantSampler s).cp = s.cp ∧ (grantSampler s).win = s.win ∧
      (grantSampler s).mark = s.mark ∧ (grantSampler s).marker = s.marker ∧ (grantSampler s).ctl = s.ctl ∧
      (grantSampler s).pool = s.pool ∧ (grantSampler s).image = s.image ∧ (grantSampler s).pointer = s.pointer ∧
      (grantSampler s).release = s.release ∧ (grantSampler s).fill = s.fill ∧ (grantSampler s).reissue = s.reissue ∧
      (grantSampler s).freeze = s.freeze ∧ (grantSampler s).causes = s.causes ∧ (grantSampler s).timing = s.timing ∧
      (grantSampler s).mg = s.mg := by
  unfold grantSampler
  try dsimp only
  (repeat' split) <;> simp

@[simp] theorem settleHead_frame (s : State) :
      (settleHead s).pending = s.pending ∧ (settleHead s).lines = s.lines ∧ (settleHead s).identity = s.identity ∧
      (settleHead s).cp = s.cp ∧ (settleHead s).mp = s.mp ∧ (settleHead s).background = s.background ∧
      (settleHead s).win = s.win ∧ (settleHead s).mark = s.mark ∧ (settleHead s).marker = s.marker ∧
      (settleHead s).ctl = s.ctl ∧ (settleHead s).pool = s.pool ∧ (settleHead s).image = s.image ∧
      (settleHead s).pointer = s.pointer ∧ (settleHead s).sampler = s.sampler ∧ (settleHead s).fill = s.fill ∧
      (settleHead s).reissue = s.reissue ∧ (settleHead s).freeze = s.freeze ∧ (settleHead s).causes = s.causes ∧
      (settleHead s).timing = s.timing ∧ (settleHead s).mg = s.mg := by
  unfold settleHead
  try dsimp only
  (repeat' split) <;> simp

@[simp] theorem flushOn_frame (s : State) :
      (flushOn s).pending = s.pending ∧ (flushOn s).lines = s.lines ∧ (flushOn s).identity = s.identity ∧
      (flushOn s).cp = s.cp ∧ (flushOn s).mp = s.mp ∧ (flushOn s).background = s.background ∧
      (flushOn s).win = s.win ∧ (flushOn s).mark = s.mark ∧ (flushOn s).marker = s.marker ∧ (flushOn s).ctl = s.ctl ∧
      (flushOn s).pool = s.pool ∧ (flushOn s).image = s.image ∧ (flushOn s).pointer = s.pointer ∧
      (flushOn s).sampler = s.sampler ∧ (flushOn s).fill = s.fill ∧ (flushOn s).reissue = s.reissue ∧
      (flushOn s).freeze = s.freeze ∧ (flushOn s).causes = s.causes ∧ (flushOn s).timing = s.timing ∧
      (flushOn s).mg = s.mg := by
  unfold flushOn
  try dsimp only
  simp

@[simp] theorem beginFill_frame (s : State) :
      (beginFill s).pending = s.pending ∧ (beginFill s).lines = s.lines ∧ (beginFill s).identity = s.identity ∧
      (beginFill s).cp = s.cp ∧ (beginFill s).mp = s.mp ∧ (beginFill s).background = s.background ∧
      (beginFill s).win = s.win ∧ (beginFill s).mark = s.mark ∧ (beginFill s).marker = s.marker ∧
      (beginFill s).ctl = s.ctl ∧ (beginFill s).pool = s.pool ∧ (beginFill s).image = s.image ∧
      (beginFill s).pointer = s.pointer ∧ (beginFill s).sampler = s.sampler ∧ (beginFill s).release = s.release ∧
      (beginFill s).reissue = s.reissue ∧ (beginFill s).freeze = s.freeze ∧ (beginFill s).causes = s.causes ∧
      (beginFill s).timing = s.timing ∧ (beginFill s).mg = s.mg := by
  unfold beginFill
  try dsimp only
  (repeat' split) <;> simp

@[simp] theorem handOver_frame (n : WinIdx) (s : State) :
      (handOver n s).pending = s.pending ∧ (handOver n s).lines = s.lines ∧ (handOver n s).identity = s.identity ∧
      (handOver n s).cp = s.cp ∧ (handOver n s).background = s.background ∧ (handOver n s).win = s.win ∧
      (handOver n s).mark = s.mark ∧ (handOver n s).marker = s.marker ∧ (handOver n s).ctl = s.ctl ∧
      (handOver n s).pool = s.pool ∧ (handOver n s).image = s.image ∧ (handOver n s).pointer = s.pointer ∧
      (handOver n s).sampler = s.sampler ∧ (handOver n s).release = s.release ∧ (handOver n s).reissue = s.reissue ∧
      (handOver n s).freeze = s.freeze ∧ (handOver n s).causes = s.causes ∧ (handOver n s).timing = s.timing ∧
      (handOver n s).mg = s.mg := by
  unfold handOver
  try dsimp only
  (repeat' split) <;> simp

@[simp] theorem reissueFrom_frame (n : WinIdx) (off : Nat) (s : State) :
      (reissueFrom n off s).pending = s.pending ∧ (reissueFrom n off s).lines = s.lines ∧
      (reissueFrom n off s).identity = s.identity ∧ (reissueFrom n off s).cp = s.cp ∧
      (reissueFrom n off s).mp = s.mp ∧ (reissueFrom n off s).background = s.background ∧
      (reissueFrom n off s).win = s.win ∧ (reissueFrom n off s).mark = s.mark ∧
      (reissueFrom n off s).marker = s.marker ∧ (reissueFrom n off s).ctl = s.ctl ∧
      (reissueFrom n off s).pool = s.pool ∧ (reissueFrom n off s).pointer = s.pointer ∧
      (reissueFrom n off s).sampler = s.sampler ∧ (reissueFrom n off s).release = s.release ∧
      (reissueFrom n off s).fill = s.fill ∧ (reissueFrom n off s).freeze = s.freeze ∧
      (reissueFrom n off s).causes = s.causes ∧ (reissueFrom n off s).timing = s.timing ∧
      (reissueFrom n off s).mg = s.mg := by
  unfold reissueFrom
  try dsimp only
  (repeat' split) <;> simp

@[simp] theorem reissueOn_frame (s : State) :
      (reissueOn s).pending = s.pending ∧ (reissueOn s).lines = s.lines ∧ (reissueOn s).identity = s.identity ∧
      (reissueOn s).cp = s.cp ∧ (reissueOn s).mp = s.mp ∧ (reissueOn s).background = s.background ∧
      (reissueOn s).win = s.win ∧ (reissueOn s).mark = s.mark ∧ (reissueOn s).marker = s.marker ∧
      (reissueOn s).ctl = s.ctl ∧ (reissueOn s).pool = s.pool ∧ (reissueOn s).pointer = s.pointer ∧
      (reissueOn s).sampler = s.sampler ∧ (reissueOn s).release = s.release ∧ (reissueOn s).fill = s.fill ∧
      (reissueOn s).freeze = s.freeze ∧ (reissueOn s).causes = s.causes ∧ (reissueOn s).timing = s.timing ∧
      (reissueOn s).mg = s.mg := by
  unfold reissueOn
  try dsimp only
  (repeat' split) <;> simp

@[simp] theorem reissuePast_frame (s : State) :
      (reissuePast s).pending = s.pending ∧ (reissuePast s).lines = s.lines ∧ (reissuePast s).identity = s.identity ∧
      (reissuePast s).cp = s.cp ∧ (reissuePast s).mp = s.mp ∧ (reissuePast s).background = s.background ∧
      (reissuePast s).win = s.win ∧ (reissuePast s).mark = s.mark ∧ (reissuePast s).marker = s.marker ∧
      (reissuePast s).ctl = s.ctl ∧ (reissuePast s).pool = s.pool ∧ (reissuePast s).pointer = s.pointer ∧
      (reissuePast s).sampler = s.sampler ∧ (reissuePast s).release = s.release ∧ (reissuePast s).fill = s.fill ∧
      (reissuePast s).freeze = s.freeze ∧ (reissuePast s).causes = s.causes ∧ (reissuePast s).timing = s.timing ∧
      (reissuePast s).mg = s.mg := by
  unfold reissuePast
  try dsimp only
  (repeat' split) <;> simp

@[simp] theorem fillOn_frame (s : State) :
      (fillOn s).pending = s.pending ∧ (fillOn s).lines = s.lines ∧ (fillOn s).identity = s.identity ∧
      (fillOn s).cp = s.cp ∧ (fillOn s).mp = s.mp ∧ (fillOn s).background = s.background ∧ (fillOn s).win = s.win ∧
      (fillOn s).mark = s.mark ∧ (fillOn s).marker = s.marker ∧ (fillOn s).ctl = s.ctl ∧ (fillOn s).pool = s.pool ∧
      (fillOn s).pointer = s.pointer ∧ (fillOn s).sampler = s.sampler ∧ (fillOn s).release = s.release ∧
      (fillOn s).freeze = s.freeze ∧ (fillOn s).causes = s.causes ∧ (fillOn s).timing = s.timing ∧
      (fillOn s).mg = s.mg := by
  unfold fillOn
  try dsimp only
  (repeat' split) <;> simp

@[simp] theorem beginRelease_frame (a : Addr) (l : Lanes) (v : Word) (o : Owner) (s : State) :
      (beginRelease a l v o s).pending = s.pending ∧ (beginRelease a l v o s).lines = s.lines ∧
      (beginRelease a l v o s).identity = s.identity ∧ (beginRelease a l v o s).cp = s.cp ∧
      (beginRelease a l v o s).win = s.win ∧ (beginRelease a l v o s).mark = s.mark ∧
      (beginRelease a l v o s).marker = s.marker ∧ (beginRelease a l v o s).ctl = s.ctl ∧
      (beginRelease a l v o s).pool = s.pool ∧ (beginRelease a l v o s).image = s.image ∧
      (beginRelease a l v o s).pointer = s.pointer ∧ (beginRelease a l v o s).sampler = s.sampler ∧
      (beginRelease a l v o s).release = s.release ∧ (beginRelease a l v o s).fill = s.fill ∧
      (beginRelease a l v o s).reissue = s.reissue ∧ (beginRelease a l v o s).freeze = s.freeze ∧
      (beginRelease a l v o s).causes = s.causes ∧ (beginRelease a l v o s).timing = s.timing ∧
      (beginRelease a l v o s).mg = s.mg := by
  unfold beginRelease
  try dsimp only
  simp

@[simp] theorem grantDrain_frame (s : State) :
      (grantDrain s).pending = s.pending ∧ (grantDrain s).lines = s.lines ∧ (grantDrain s).identity = s.identity ∧
      (grantDrain s).cp = s.cp ∧ (grantDrain s).win = s.win ∧ (grantDrain s).mark = s.mark ∧
      (grantDrain s).marker = s.marker ∧ (grantDrain s).ctl = s.ctl ∧ (grantDrain s).pool = s.pool ∧
      (grantDrain s).image = s.image ∧ (grantDrain s).pointer = s.pointer ∧ (grantDrain s).sampler = s.sampler ∧
      (grantDrain s).fill = s.fill ∧ (grantDrain s).reissue = s.reissue ∧ (grantDrain s).freeze = s.freeze ∧
      (grantDrain s).causes = s.causes ∧ (grantDrain s).timing = s.timing ∧ (grantDrain s).mg = s.mg := by
  unfold grantDrain
  try dsimp only
  (repeat' split) <;> simp

@[simp] theorem grantFill_frame (s : State) :
      (grantFill s).pending = s.pending ∧ (grantFill s).lines = s.lines ∧ (grantFill s).identity = s.identity ∧
      (grantFill s).cp = s.cp ∧ (grantFill s).win = s.win ∧ (grantFill s).mark = s.mark ∧
      (grantFill s).marker = s.marker ∧ (grantFill s).ctl = s.ctl ∧ (grantFill s).pool = s.pool ∧
      (grantFill s).pointer = s.pointer ∧ (grantFill s).sampler = s.sampler ∧ (grantFill s).release = s.release ∧
      (grantFill s).freeze = s.freeze ∧ (grantFill s).causes = s.causes ∧ (grantFill s).timing = s.timing ∧
      (grantFill s).mg = s.mg := by
  unfold grantFill
  try dsimp only
  (repeat' split) <;> simp

@[simp] theorem grantReissue_frame (s : State) :
      (grantReissue s).pending = s.pending ∧ (grantReissue s).lines = s.lines ∧
      (grantReissue s).identity = s.identity ∧ (grantReissue s).cp = s.cp ∧ (grantReissue s).win = s.win ∧
      (grantReissue s).mark = s.mark ∧ (grantReissue s).marker = s.marker ∧ (grantReissue s).ctl = s.ctl ∧
      (grantReissue s).pool = s.pool ∧ (grantReissue s).pointer = s.pointer ∧ (grantReissue s).sampler = s.sampler ∧
      (grantReissue s).release = s.release ∧ (grantReissue s).fill = s.fill ∧ (grantReissue s).freeze = s.freeze ∧
      (grantReissue s).causes = s.causes ∧ (grantReissue s).timing = s.timing ∧ (grantReissue s).mg = s.mg := by
  unfold grantReissue
  try dsimp only
  (repeat' split) <;> simp

@[simp] theorem grantRelease_frame (s : State) :
      (grantRelease s).pending = s.pending ∧ (grantRelease s).lines = s.lines ∧
      (grantRelease s).identity = s.identity ∧ (grantRelease s).cp = s.cp ∧ (grantRelease s).win = s.win ∧
      (grantRelease s).mark = s.mark ∧ (grantRelease s).marker = s.marker ∧ (grantRelease s).ctl = s.ctl ∧
      (grantRelease s).pool = s.pool ∧ (grantRelease s).pointer = s.pointer ∧ (grantRelease s).sampler = s.sampler ∧
      (grantRelease s).freeze = s.freeze ∧ (grantRelease s).causes = s.causes ∧ (grantRelease s).timing = s.timing ∧
      (grantRelease s).mg = s.mg := by
  unfold grantRelease
  try dsimp only
  (repeat' split) <;> simp

@[simp] theorem mergedRead_frame (n : WinIdx) (o : Outstanding) (s : State) :
      (mergedRead n o s).pending = s.pending ∧ (mergedRead n o s).lines = s.lines ∧
      (mergedRead n o s).identity = s.identity ∧ (mergedRead n o s).mp = s.mp ∧
      (mergedRead n o s).background = s.background ∧ (mergedRead n o s).win = s.win ∧
      (mergedRead n o s).mark = s.mark ∧ (mergedRead n o s).marker = s.marker ∧ (mergedRead n o s).ctl = s.ctl ∧
      (mergedRead n o s).pool = s.pool ∧ (mergedRead n o s).image = s.image ∧ (mergedRead n o s).pointer = s.pointer ∧
      (mergedRead n o s).sampler = s.sampler ∧ (mergedRead n o s).release = s.release ∧
      (mergedRead n o s).fill = s.fill ∧ (mergedRead n o s).reissue = s.reissue ∧
      (mergedRead n o s).freeze = s.freeze ∧ (mergedRead n o s).causes = s.causes ∧
      (mergedRead n o s).timing = s.timing ∧ (mergedRead n o s).mg = s.mg := by
  unfold mergedRead
  try dsimp only
  (repeat' split) <;> simp

@[simp] theorem readInput_frame (o : Outstanding) (s : State) :
      (readInput o s).pending = s.pending ∧ (readInput o s).lines = s.lines ∧ (readInput o s).identity = s.identity ∧
      (readInput o s).mp = s.mp ∧ (readInput o s).background = s.background ∧ (readInput o s).win = s.win ∧
      (readInput o s).mark = s.mark ∧ (readInput o s).marker = s.marker ∧ (readInput o s).ctl = s.ctl ∧
      (readInput o s).pool = s.pool ∧ (readInput o s).image = s.image ∧ (readInput o s).pointer = s.pointer ∧
      (readInput o s).sampler = s.sampler ∧ (readInput o s).release = s.release ∧ (readInput o s).fill = s.fill ∧
      (readInput o s).reissue = s.reissue ∧ (readInput o s).freeze = s.freeze ∧ (readInput o s).causes = s.causes ∧
      (readInput o s).timing = s.timing ∧ (readInput o s).mg = s.mg := by
  unfold readInput
  try dsimp only
  (repeat' split) <;> simp

@[simp] theorem sampledRead_frame (n : WinIdx) (o : Outstanding) (s : State) :
      (sampledRead n o s).pending = s.pending ∧ (sampledRead n o s).lines = s.lines ∧
      (sampledRead n o s).identity = s.identity ∧ (sampledRead n o s).mp = s.mp ∧
      (sampledRead n o s).background = s.background ∧ (sampledRead n o s).win = s.win ∧
      (sampledRead n o s).mark = s.mark ∧ (sampledRead n o s).marker = s.marker ∧ (sampledRead n o s).ctl = s.ctl ∧
      (sampledRead n o s).pool = s.pool ∧ (sampledRead n o s).image = s.image ∧
      (sampledRead n o s).pointer = s.pointer ∧ (sampledRead n o s).sampler = s.sampler ∧
      (sampledRead n o s).release = s.release ∧ (sampledRead n o s).fill = s.fill ∧
      (sampledRead n o s).reissue = s.reissue ∧ (sampledRead n o s).freeze = s.freeze ∧
      (sampledRead n o s).causes = s.causes ∧ (sampledRead n o s).timing = s.timing ∧ (sampledRead n o s).mg = s.mg := by
  unfold sampledRead
  try dsimp only
  (repeat' split) <;> simp

@[simp] theorem carryOut_frame (t : Treatment) (o : Outstanding) (s : State) :
      (carryOut t o s).pending = s.pending ∧ (carryOut t o s).lines = s.lines ∧
      (carryOut t o s).identity = s.identity ∧ (carryOut t o s).mp = s.mp ∧
      (carryOut t o s).background = s.background ∧ (carryOut t o s).win = s.win ∧ (carryOut t o s).mark = s.mark ∧
      (carryOut t o s).marker = s.marker ∧ (carryOut t o s).ctl = s.ctl ∧ (carryOut t o s).pool = s.pool ∧
      (carryOut t o s).pointer = s.pointer ∧ (carryOut t o s).sampler = s.sampler ∧
      (carryOut t o s).release = s.release ∧ (carryOut t o s).fill = s.fill ∧ (carryOut t o s).reissue = s.reissue ∧
      (carryOut t o s).freeze = s.freeze ∧ (carryOut t o s).causes = s.causes ∧ (carryOut t o s).timing = s.timing ∧
      (carryOut t o s).mg = s.mg := by
  unfold carryOut
  try dsimp only
  (repeat' split) <;> simp

@[simp] theorem begin_frame (p : PortAccess) (o : Outstanding) (s : State) :
      (begin p o s).pending = s.pending ∧ (begin p o s).lines = s.lines ∧ (begin p o s).identity = s.identity ∧
      (begin p o s).background = s.background ∧ (begin p o s).win = s.win ∧ (begin p o s).mark = s.mark ∧
      (begin p o s).marker = s.marker ∧ (begin p o s).ctl = s.ctl ∧ (begin p o s).pool = s.pool ∧
      (begin p o s).image = s.image ∧ (begin p o s).pointer = s.pointer ∧ (begin p o s).sampler = s.sampler ∧
      (begin p o s).release = s.release ∧ (begin p o s).fill = s.fill ∧ (begin p o s).reissue = s.reissue ∧
      (begin p o s).freeze = s.freeze ∧ (begin p o s).causes = s.causes ∧ (begin p o s).timing = s.timing ∧
      (begin p o s).mg = s.mg := by
  unfold begin
  try dsimp only
  simp

@[simp] theorem grantController_frame (s : State) :
      (grantController s).pending = s.pending ∧ (grantController s).lines = s.lines ∧
      (grantController s).identity = s.identity ∧ (grantController s).background = s.background ∧
      (grantController s).win = s.win ∧ (grantController s).mark = s.mark ∧ (grantController s).marker = s.marker ∧
      (grantController s).ctl = s.ctl ∧ (grantController s).pool = s.pool ∧ (grantController s).image = s.image ∧
      (grantController s).pointer = s.pointer ∧ (grantController s).sampler = s.sampler ∧
      (grantController s).release = s.release ∧ (grantController s).fill = s.fill ∧
      (grantController s).reissue = s.reissue ∧ (grantController s).freeze = s.freeze ∧
      (grantController s).causes = s.causes ∧ (grantController s).timing = s.timing ∧ (grantController s).mg = s.mg := by
  unfold grantController
  try dsimp only
  (repeat' split) <;> simp

@[simp] theorem rerouteSafe_frame (s : State) :
      (rerouteSafe s).pending = s.pending ∧ (rerouteSafe s).lines = s.lines ∧ (rerouteSafe s).identity = s.identity ∧
      (rerouteSafe s).mp = s.mp ∧ (rerouteSafe s).background = s.background ∧ (rerouteSafe s).win = s.win ∧
      (rerouteSafe s).mark = s.mark ∧ (rerouteSafe s).marker = s.marker ∧ (rerouteSafe s).ctl = s.ctl ∧
      (rerouteSafe s).pool = s.pool ∧ (rerouteSafe s).pointer = s.pointer ∧ (rerouteSafe s).sampler = s.sampler ∧
      (rerouteSafe s).release = s.release ∧ (rerouteSafe s).fill = s.fill ∧ (rerouteSafe s).reissue = s.reissue ∧
      (rerouteSafe s).freeze = s.freeze ∧ (rerouteSafe s).timing = s.timing ∧ (rerouteSafe s).mg = s.mg := by
  unfold rerouteSafe
  try dsimp only
  (repeat' split) <;> simp

@[simp] theorem mapOwner_frame (f : Owner → Owner) (s : State) :
      (mapOwner f s).pending = s.pending ∧ (mapOwner f s).lines = s.lines ∧ (mapOwner f s).identity = s.identity ∧
      (mapOwner f s).cp = s.cp ∧ (mapOwner f s).background = s.background ∧ (mapOwner f s).win = s.win ∧
      (mapOwner f s).mark = s.mark ∧ (mapOwner f s).marker = s.marker ∧ (mapOwner f s).ctl = s.ctl ∧
      (mapOwner f s).pool = s.pool ∧ (mapOwner f s).image = s.image ∧ (mapOwner f s).pointer = s.pointer ∧
      (mapOwner f s).sampler = s.sampler ∧ (mapOwner f s).release = s.release ∧ (mapOwner f s).fill = s.fill ∧
      (mapOwner f s).reissue = s.reissue ∧ (mapOwner f s).freeze = s.freeze ∧ (mapOwner f s).causes = s.causes ∧
      (mapOwner f s).timing = s.timing ∧ (mapOwner f s).mg = s.mg := by
  unfold mapOwner
  try dsimp only
  simp

@[simp] theorem relaxStageLow_frame (s : State) :
      (relaxStageLow s).pending = s.pending ∧ (relaxStageLow s).lines = s.lines ∧
      (relaxStageLow s).identity = s.identity ∧ (relaxStageLow s).cp = s.cp ∧ (relaxStageLow s).mp = s.mp ∧
      (relaxStageLow s).background = s.background ∧ (relaxStageLow s).win = s.win ∧ (relaxStageLow s).mark = s.mark ∧
      (relaxStageLow s).marker = s.marker ∧ (relaxStageLow s).ctl = s.ctl ∧ (relaxStageLow s).pool = s.pool ∧
      (relaxStageLow s).image = s.image ∧ (relaxStageLow s).pointer = s.pointer ∧
      (relaxStageLow s).sampler = s.sampler ∧ (relaxStageLow s).release = s.release ∧
      (relaxStageLow s).fill = s.fill ∧ (relaxStageLow s).reissue = s.reissue ∧ (relaxStageLow s).freeze = s.freeze ∧
      (relaxStageLow s).timing = s.timing ∧ (relaxStageLow s).mg = s.mg := by
  unfold relaxStageLow
  try dsimp only
  (repeat' split) <;> simp

@[simp] theorem safeControl_frame (s : State) :
      (safeControl s).pending = s.pending ∧ (safeControl s).lines = s.lines ∧ (safeControl s).identity = s.identity ∧
      (safeControl s).cp = s.cp ∧ (safeControl s).mp = s.mp ∧ (safeControl s).background = s.background ∧
      (safeControl s).win = s.win ∧ (safeControl s).mark = s.mark ∧ (safeControl s).marker = s.marker ∧
      (safeControl s).pool = s.pool ∧ (safeControl s).image = s.image ∧ (safeControl s).pointer = s.pointer ∧
      (safeControl s).sampler = s.sampler ∧ (safeControl s).release = s.release ∧ (safeControl s).fill = s.fill ∧
      (safeControl s).reissue = s.reissue ∧ (safeControl s).freeze = s.freeze ∧ (safeControl s).causes = s.causes ∧
      (safeControl s).mg = s.mg := by
  unfold safeControl
  try dsimp only
  simp

@[simp] theorem dropQueue_frame (s : State) :
      (dropQueue s).pending = s.pending ∧ (dropQueue s).lines = s.lines ∧ (dropQueue s).identity = s.identity ∧
      (dropQueue s).cp = s.cp ∧ (dropQueue s).background = s.background ∧ (dropQueue s).win = s.win ∧
      (dropQueue s).mark = s.mark ∧ (dropQueue s).marker = s.marker ∧ (dropQueue s).ctl = s.ctl ∧
      (dropQueue s).image = s.image ∧ (dropQueue s).pointer = s.pointer ∧ (dropQueue s).sampler = s.sampler ∧
      (dropQueue s).fill = s.fill ∧ (dropQueue s).reissue = s.reissue ∧ (dropQueue s).freeze = s.freeze ∧
      (dropQueue s).causes = s.causes ∧ (dropQueue s).timing = s.timing ∧ (dropQueue s).mg = s.mg := by
  unfold dropQueue
  try dsimp only
  simp

@[simp] theorem safeFreeze_frame (s : State) :
      (safeFreeze s).pending = s.pending ∧ (safeFreeze s).lines = s.lines ∧ (safeFreeze s).identity = s.identity ∧
      (safeFreeze s).cp = s.cp ∧ (safeFreeze s).mp = s.mp ∧ (safeFreeze s).background = s.background ∧
      (safeFreeze s).mark = s.mark ∧ (safeFreeze s).marker = s.marker ∧ (safeFreeze s).ctl = s.ctl ∧
      (safeFreeze s).pool = s.pool ∧ (safeFreeze s).image = s.image ∧ (safeFreeze s).pointer = s.pointer ∧
      (safeFreeze s).sampler = s.sampler ∧ (safeFreeze s).release = s.release ∧ (safeFreeze s).fill = s.fill ∧
      (safeFreeze s).reissue = s.reissue ∧ (safeFreeze s).causes = s.causes ∧ (safeFreeze s).timing = s.timing ∧
      (safeFreeze s).mg = s.mg := by
  unfold safeFreeze
  try dsimp only
  simp

/-- In SAFE no access is routed to a treatment that writes the image (Table 1-3). -/
theorem treatmentOf_safe_ne_imageOwed {s : State} (h : s.ctl.mode = .safe) (c : AccessClass) (a : Access) (n : WinIdx) :
    treatmentOf s c a ≠ .imageOwed n := by
  unfold treatmentOf isEmptyWrite markTreatment inputTreatment outputTreatment acksEmpty
  rw [h]
  (repeat' split) <;> simp_all

theorem carryOut_image {t : Treatment} (h : ∀ n, t ≠ .imageOwed n) (o : Outstanding) (s : State) :
    (carryOut t o s).image = s.image := by
  cases t <;> simp_all [carryOut]

theorem rerouteSafe_image {s : State} (h : s.ctl.mode = .safe) : (rerouteSafe s).image = s.image := by
  unfold rerouteSafe
  dsimp only
  (repeat' split) <;> simp [carryOut_image (treatmentOf_safe_ne_imageOwed h _ _)]

@[simp] theorem enterSafe_frame (s : State) :
      (enterSafe s).pending = s.pending ∧ (enterSafe s).lines = s.lines ∧ (enterSafe s).identity = s.identity ∧
      (enterSafe s).background = s.background ∧ (enterSafe s).mark = s.mark ∧ (enterSafe s).marker = s.marker ∧
      (enterSafe s).image = s.image ∧ (enterSafe s).pointer = s.pointer ∧ (enterSafe s).reissue = s.reissue ∧
      (enterSafe s).mg = s.mg := by
  unfold enterSafe
  have h : (beginFill (safeFreeze (walkAbandon (dropQueue (safeControl s))))).ctl.mode = .safe := by
    simp [safeControl]
  simp [rerouteSafe_image h]

@[simp] theorem complete_frame (r : Reason) (s : State) :
      (complete r s).pending = s.pending ∧ (complete r s).lines = s.lines ∧ (complete r s).identity = s.identity ∧
      (complete r s).cp = s.cp ∧ (complete r s).mp = s.mp ∧ (complete r s).background = s.background ∧
      (complete r s).win = s.win ∧ (complete r s).mark = s.mark ∧ (complete r s).marker = s.marker ∧
      (complete r s).ctl = s.ctl ∧ (complete r s).pool = s.pool ∧ (complete r s).image = s.image ∧
      (complete r s).pointer = s.pointer ∧ (complete r s).sampler = s.sampler ∧ (complete r s).release = s.release ∧
      (complete r s).fill = s.fill ∧ (complete r s).reissue = s.reissue ∧ (complete r s).freeze = s.freeze ∧
      (complete r s).causes = s.causes ∧ (complete r s).timing = s.timing := by
  unfold complete
  try dsimp only
  simp

@[simp] theorem abandonReissue_frame (s : State) :
      (abandonReissue s).pending = s.pending ∧ (abandonReissue s).lines = s.lines ∧
      (abandonReissue s).identity = s.identity ∧ (abandonReissue s).cp = s.cp ∧
      (abandonReissue s).background = s.background ∧ (abandonReissue s).win = s.win ∧
      (abandonReissue s).mark = s.mark ∧ (abandonReissue s).marker = s.marker ∧ (abandonReissue s).ctl = s.ctl ∧
      (abandonReissue s).pool = s.pool ∧ (abandonReissue s).image = s.image ∧ (abandonReissue s).pointer = s.pointer ∧
      (abandonReissue s).sampler = s.sampler ∧ (abandonReissue s).release = s.release ∧
      (abandonReissue s).freeze = s.freeze ∧ (abandonReissue s).causes = s.causes ∧
      (abandonReissue s).timing = s.timing := by
  unfold abandonReissue
  try dsimp only
  simp

@[simp] theorem latch_frame (c : Cause) (s : State) :
      (latch c s).pending = s.pending ∧ (latch c s).lines = s.lines ∧ (latch c s).identity = s.identity ∧
      (latch c s).background = s.background ∧ (latch c s).mark = s.mark ∧ (latch c s).marker = s.marker ∧
      (latch c s).image = s.image ∧ (latch c s).pointer = s.pointer := by
  unfold latch
  try dsimp only
  (repeat' split) <;> simp

@[simp] theorem followLevel_frame (c : LevelCause) (s : State) :
      (followLevel c s).pending = s.pending ∧ (followLevel c s).lines = s.lines ∧
      (followLevel c s).identity = s.identity ∧ (followLevel c s).background = s.background ∧
      (followLevel c s).mark = s.mark ∧ (followLevel c s).marker = s.marker ∧ (followLevel c s).image = s.image ∧
      (followLevel c s).pointer = s.pointer := by
  unfold followLevel
  try dsimp only
  (repeat' split) <;> simp

@[simp] theorem setOpenStage_frame (l : List Entry) (s : State) :
      (setOpenStage l s).pending = s.pending ∧ (setOpenStage l s).lines = s.lines ∧
      (setOpenStage l s).identity = s.identity ∧ (setOpenStage l s).cp = s.cp ∧ (setOpenStage l s).mp = s.mp ∧
      (setOpenStage l s).background = s.background ∧ (setOpenStage l s).win = s.win ∧
      (setOpenStage l s).mark = s.mark ∧ (setOpenStage l s).marker = s.marker ∧ (setOpenStage l s).ctl = s.ctl ∧
      (setOpenStage l s).image = s.image ∧ (setOpenStage l s).pointer = s.pointer ∧
      (setOpenStage l s).sampler = s.sampler ∧ (setOpenStage l s).release = s.release ∧
      (setOpenStage l s).fill = s.fill ∧ (setOpenStage l s).reissue = s.reissue ∧
      (setOpenStage l s).freeze = s.freeze ∧ (setOpenStage l s).causes = s.causes ∧
      (setOpenStage l s).timing = s.timing ∧ (setOpenStage l s).mg = s.mg := by
  unfold setOpenStage
  try dsimp only
  simp

@[simp] theorem markTorn_frame (s : State) :
      (markTorn s).pending = s.pending ∧ (markTorn s).lines = s.lines ∧ (markTorn s).identity = s.identity ∧
      (markTorn s).cp = s.cp ∧ (markTorn s).mp = s.mp ∧ (markTorn s).background = s.background ∧
      (markTorn s).win = s.win ∧ (markTorn s).mark = s.mark ∧ (markTorn s).marker = s.marker ∧
      (markTorn s).pool = s.pool ∧ (markTorn s).image = s.image ∧ (markTorn s).pointer = s.pointer ∧
      (markTorn s).sampler = s.sampler ∧ (markTorn s).release = s.release ∧ (markTorn s).fill = s.fill ∧
      (markTorn s).reissue = s.reissue ∧ (markTorn s).freeze = s.freeze ∧ (markTorn s).causes = s.causes ∧
      (markTorn s).timing = s.timing ∧ (markTorn s).mg = s.mg := by
  unfold markTorn
  try dsimp only
  simp

@[simp] theorem tornWrite_frame (g : Bool) (n : WinIdx) (o : Outstanding) (s : State) :
      (tornWrite g n o s).pending = s.pending ∧ (tornWrite g n o s).lines = s.lines ∧
      (tornWrite g n o s).identity = s.identity ∧ (tornWrite g n o s).background = s.background ∧
      (tornWrite g n o s).mark = s.mark ∧ (tornWrite g n o s).marker = s.marker ∧
      (tornWrite g n o s).pointer = s.pointer := by
  unfold tornWrite
  try dsimp only
  (repeat' split) <;> simp

@[simp] theorem stageWrite_frame (g : Bool) (n : WinIdx) (o : Outstanding) (s : State) :
      (stageWrite g n o s).pending = s.pending ∧ (stageWrite g n o s).lines = s.lines ∧
      (stageWrite g n o s).identity = s.identity ∧ (stageWrite g n o s).background = s.background ∧
      (stageWrite g n o s).mark = s.mark ∧ (stageWrite g n o s).marker = s.marker ∧
      (stageWrite g n o s).pointer = s.pointer := by
  unfold stageWrite
  try dsimp only
  (repeat' split) <;> simp

@[simp] theorem boundaryPool_frame (s : State) :
      (boundaryPool s).pending = s.pending ∧ (boundaryPool s).lines = s.lines ∧
      (boundaryPool s).identity = s.identity ∧ (boundaryPool s).cp = s.cp ∧
      (boundaryPool s).background = s.background ∧ (boundaryPool s).win = s.win ∧ (boundaryPool s).mark = s.mark ∧
      (boundaryPool s).marker = s.marker ∧ (boundaryPool s).ctl = s.ctl ∧ (boundaryPool s).pointer = s.pointer ∧
      (boundaryPool s).sampler = s.sampler ∧ (boundaryPool s).fill = s.fill ∧ (boundaryPool s).reissue = s.reissue ∧
      (boundaryPool s).freeze = s.freeze ∧ (boundaryPool s).causes = s.causes ∧ (boundaryPool s).timing = s.timing ∧
      (boundaryPool s).mg = s.mg := by
  unfold boundaryPool
  try dsimp only
  simp

@[simp] theorem boundaryFreeze_frame (s : State) :
      (boundaryFreeze s).pending = s.pending ∧ (boundaryFreeze s).lines = s.lines ∧
      (boundaryFreeze s).identity = s.identity ∧ (boundaryFreeze s).cp = s.cp ∧ (boundaryFreeze s).mp = s.mp ∧
      (boundaryFreeze s).background = s.background ∧ (boundaryFreeze s).mark = s.mark ∧
      (boundaryFreeze s).marker = s.marker ∧ (boundaryFreeze s).ctl = s.ctl ∧ (boundaryFreeze s).pool = s.pool ∧
      (boundaryFreeze s).image = s.image ∧ (boundaryFreeze s).pointer = s.pointer ∧
      (boundaryFreeze s).sampler = s.sampler ∧ (boundaryFreeze s).release = s.release ∧
      (boundaryFreeze s).fill = s.fill ∧ (boundaryFreeze s).reissue = s.reissue ∧
      (boundaryFreeze s).causes = s.causes ∧ (boundaryFreeze s).timing = s.timing ∧ (boundaryFreeze s).mg = s.mg := by
  unfold boundaryFreeze
  try dsimp only
  simp

@[simp] theorem boundaryControl_frame (s : State) :
      (boundaryControl s).pending = s.pending ∧ (boundaryControl s).lines = s.lines ∧
      (boundaryControl s).identity = s.identity ∧ (boundaryControl s).cp = s.cp ∧ (boundaryControl s).mp = s.mp ∧
      (boundaryControl s).background = s.background ∧ (boundaryControl s).win = s.win ∧
      (boundaryControl s).mark = s.mark ∧ (boundaryControl s).marker = s.marker ∧ (boundaryControl s).pool = s.pool ∧
      (boundaryControl s).image = s.image ∧ (boundaryControl s).pointer = s.pointer ∧
      (boundaryControl s).sampler = s.sampler ∧ (boundaryControl s).release = s.release ∧
      (boundaryControl s).fill = s.fill ∧ (boundaryControl s).reissue = s.reissue ∧
      (boundaryControl s).freeze = s.freeze ∧ (boundaryControl s).causes = s.causes ∧ (boundaryControl s).mg = s.mg := by
  unfold boundaryControl
  try dsimp only
  (repeat' split) <;> simp

@[simp] theorem boundaryWalk_frame (b : Bool) (ws : Windows) (s : State) :
      (boundaryWalk b ws s).pending = s.pending ∧ (boundaryWalk b ws s).lines = s.lines ∧
      (boundaryWalk b ws s).identity = s.identity ∧ (boundaryWalk b ws s).cp = s.cp ∧
      (boundaryWalk b ws s).background = s.background ∧ (boundaryWalk b ws s).win = s.win ∧
      (boundaryWalk b ws s).mark = s.mark ∧ (boundaryWalk b ws s).marker = s.marker ∧
      (boundaryWalk b ws s).ctl = s.ctl ∧ (boundaryWalk b ws s).pool = s.pool ∧
      (boundaryWalk b ws s).pointer = s.pointer ∧ (boundaryWalk b ws s).release = s.release ∧
      (boundaryWalk b ws s).fill = s.fill ∧ (boundaryWalk b ws s).reissue = s.reissue ∧
      (boundaryWalk b ws s).freeze = s.freeze ∧ (boundaryWalk b ws s).causes = s.causes ∧
      (boundaryWalk b ws s).timing = s.timing ∧ (boundaryWalk b ws s).mg = s.mg := by
  unfold boundaryWalk
  try dsimp only
  (repeat' split) <;> simp

@[simp] theorem boundary_frame (s : State) :
      (boundary s).pending = s.pending ∧ (boundary s).lines = s.lines ∧ (boundary s).identity = s.identity ∧
      (boundary s).cp = s.cp ∧ (boundary s).background = s.background ∧ (boundary s).mark = s.mark ∧
      (boundary s).marker = s.marker ∧ (boundary s).pointer = s.pointer ∧ (boundary s).fill = s.fill ∧
      (boundary s).reissue = s.reissue ∧ (boundary s).causes = s.causes ∧ (boundary s).mg = s.mg := by
  unfold boundary
  try dsimp only
  (repeat' split) <;> simp

@[simp] theorem firstMark_frame (s : State) :
      (firstMark s).pending = s.pending ∧ (firstMark s).lines = s.lines ∧ (firstMark s).identity = s.identity ∧
      (firstMark s).cp = s.cp ∧ (firstMark s).background = s.background ∧ (firstMark s).win = s.win ∧
      (firstMark s).mark = s.mark ∧ (firstMark s).marker = s.marker ∧ (firstMark s).pool = s.pool ∧
      (firstMark s).pointer = s.pointer ∧ (firstMark s).release = s.release ∧ (firstMark s).fill = s.fill ∧
      (firstMark s).reissue = s.reissue ∧ (firstMark s).freeze = s.freeze ∧ (firstMark s).causes = s.causes ∧
      (firstMark s).mg = s.mg := by
  unfold firstMark
  try dsimp only
  simp

@[simp] theorem markInRun_frame (o : Outstanding) (s : State) :
      (markInRun o s).pending = s.pending ∧ (markInRun o s).lines = s.lines ∧ (markInRun o s).identity = s.identity ∧
      (markInRun o s).background = s.background ∧ (markInRun o s).mark = s.mark ∧ (markInRun o s).marker = s.marker ∧
      (markInRun o s).pointer = s.pointer := by
  unfold markInRun
  try dsimp only
  (repeat' split) <;> simp

@[simp] theorem stalledBoundary_frame (o : Outstanding) (s : State) :
      (stalledBoundary o s).pending = s.pending ∧ (stalledBoundary o s).lines = s.lines ∧
      (stalledBoundary o s).identity = s.identity ∧ (stalledBoundary o s).background = s.background ∧
      (stalledBoundary o s).mark = s.mark ∧ (stalledBoundary o s).marker = s.marker ∧
      (stalledBoundary o s).pointer = s.pointer := by
  unfold stalledBoundary
  try dsimp only
  (repeat' split) <;> simp

@[simp] theorem route_frame (g : Bool) (o : Outstanding) (s : State) :
      (route g o s).pending = s.pending ∧ (route g o s).lines = s.lines ∧ (route g o s).identity = s.identity ∧
      (route g o s).background = s.background ∧ (route g o s).mark = s.mark ∧ (route g o s).marker = s.marker ∧
      (route g o s).pointer = s.pointer := by
  unfold route
  try dsimp only
  (repeat' split) <;> simp

@[simp] theorem reroute_frame (b s : State) :
      (reroute b s).pending = s.pending ∧ (reroute b s).lines = s.lines ∧ (reroute b s).identity = s.identity ∧
      (reroute b s).background = s.background ∧ (reroute b s).mark = s.mark ∧ (reroute b s).marker = s.marker ∧
      (reroute b s).pointer = s.pointer := by
  unfold reroute
  try dsimp only
  (repeat' split) <;> simp

@[simp] theorem clearOwedAt_frame (n : WinIdx) (a : Addr) (l : Lanes) (s : State) :
      (clearOwedAt n a l s).pending = s.pending ∧ (clearOwedAt n a l s).lines = s.lines ∧
      (clearOwedAt n a l s).identity = s.identity ∧ (clearOwedAt n a l s).cp = s.cp ∧
      (clearOwedAt n a l s).mp = s.mp ∧ (clearOwedAt n a l s).background = s.background ∧
      (clearOwedAt n a l s).win = s.win ∧ (clearOwedAt n a l s).mark = s.mark ∧
      (clearOwedAt n a l s).marker = s.marker ∧ (clearOwedAt n a l s).ctl = s.ctl ∧
      (clearOwedAt n a l s).pool = s.pool ∧ (clearOwedAt n a l s).pointer = s.pointer ∧
      (clearOwedAt n a l s).sampler = s.sampler ∧ (clearOwedAt n a l s).release = s.release ∧
      (clearOwedAt n a l s).fill = s.fill ∧ (clearOwedAt n a l s).reissue = s.reissue ∧
      (clearOwedAt n a l s).freeze = s.freeze ∧ (clearOwedAt n a l s).causes = s.causes ∧
      (clearOwedAt n a l s).timing = s.timing ∧ (clearOwedAt n a l s).mg = s.mg := by
  unfold clearOwedAt
  try dsimp only
  (repeat' split) <;> simp

@[simp] theorem freeHeadEntry_frame (s : State) :
      (freeHeadEntry s).pending = s.pending ∧ (freeHeadEntry s).lines = s.lines ∧
      (freeHeadEntry s).identity = s.identity ∧ (freeHeadEntry s).cp = s.cp ∧ (freeHeadEntry s).mp = s.mp ∧
      (freeHeadEntry s).background = s.background ∧ (freeHeadEntry s).win = s.win ∧ (freeHeadEntry s).mark = s.mark ∧
      (freeHeadEntry s).marker = s.marker ∧ (freeHeadEntry s).ctl = s.ctl ∧ (freeHeadEntry s).pool = s.pool ∧
      (freeHeadEntry s).image = s.image ∧ (freeHeadEntry s).pointer = s.pointer ∧
      (freeHeadEntry s).sampler = s.sampler ∧ (freeHeadEntry s).fill = s.fill ∧
      (freeHeadEntry s).reissue = s.reissue ∧ (freeHeadEntry s).freeze = s.freeze ∧
      (freeHeadEntry s).causes = s.causes ∧ (freeHeadEntry s).timing = s.timing ∧ (freeHeadEntry s).mg = s.mg := by
  unfold freeHeadEntry
  try dsimp only
  (repeat' split) <;> simp

@[simp] theorem endShared_frame (ok : Bool) (d : Word) (s : State) :
      (endShared ok d s).pending = s.pending ∧ (endShared ok d s).lines = s.lines ∧
      (endShared ok d s).identity = s.identity ∧ (endShared ok d s).mp = s.mp ∧
      (endShared ok d s).background = s.background ∧ (endShared ok d s).win = s.win ∧
      (endShared ok d s).mark = s.mark ∧ (endShared ok d s).marker = s.marker ∧ (endShared ok d s).ctl = s.ctl ∧
      (endShared ok d s).pool = s.pool ∧ (endShared ok d s).image = s.image ∧ (endShared ok d s).pointer = s.pointer ∧
      (endShared ok d s).sampler = s.sampler ∧ (endShared ok d s).release = s.release ∧
      (endShared ok d s).fill = s.fill ∧ (endShared ok d s).reissue = s.reissue ∧
      (endShared ok d s).freeze = s.freeze ∧ (endShared ok d s).causes = s.causes ∧
      (endShared ok d s).timing = s.timing ∧ (endShared ok d s).mg = s.mg := by
  unfold endShared
  try dsimp only
  (repeat' split) <;> simp

@[simp] theorem passAnew_frame (s : State) :
      (passAnew s).pending = s.pending ∧ (passAnew s).lines = s.lines ∧ (passAnew s).identity = s.identity ∧
      (passAnew s).background = s.background ∧ (passAnew s).mark = s.mark ∧ (passAnew s).marker = s.marker ∧
      (passAnew s).pointer = s.pointer := by
  unfold passAnew
  try dsimp only
  (repeat' split) <;> simp

@[simp] theorem ownerEnd_frame (p : PortAccess) (ok : Bool) (d : Word) (s : State) :
      (ownerEnd p ok d s).pending = s.pending ∧ (ownerEnd p ok d s).lines = s.lines ∧
      (ownerEnd p ok d s).identity = s.identity ∧ (ownerEnd p ok d s).background = s.background ∧
      (ownerEnd p ok d s).mark = s.mark ∧ (ownerEnd p ok d s).marker = s.marker ∧
      (ownerEnd p ok d s).pointer = s.pointer := by
  unfold ownerEnd
  try dsimp only
  (repeat' split) <;> simp

@[simp] theorem goOn_frame (o : Owner) (s : State) :
      (goOn o s).pending = s.pending ∧ (goOn o s).lines = s.lines ∧ (goOn o s).identity = s.identity ∧
      (goOn o s).cp = s.cp ∧ (goOn o s).mp = s.mp ∧ (goOn o s).background = s.background ∧ (goOn o s).win = s.win ∧
      (goOn o s).mark = s.mark ∧ (goOn o s).marker = s.marker ∧ (goOn o s).ctl = s.ctl ∧ (goOn o s).pool = s.pool ∧
      (goOn o s).pointer = s.pointer ∧ (goOn o s).freeze = s.freeze ∧ (goOn o s).causes = s.causes ∧
      (goOn o s).timing = s.timing ∧ (goOn o s).mg = s.mg := by
  unfold goOn
  try dsimp only
  (repeat' split) <;> simp

@[simp] theorem accessEnded_frame (ok : Bool) (d : Word) (s : State) :
      (accessEnded ok d s).pending = s.pending ∧ (accessEnded ok d s).lines = s.lines ∧
      (accessEnded ok d s).identity = s.identity ∧ (accessEnded ok d s).background = s.background ∧
      (accessEnded ok d s).mark = s.mark ∧ (accessEnded ok d s).marker = s.marker ∧
      (accessEnded ok d s).pointer = s.pointer := by
  unfold accessEnded
  try dsimp only
  (repeat' split) <;> simp

@[simp] theorem grantPort_frame (s : State) :
      (grantPort s).pending = s.pending ∧ (grantPort s).lines = s.lines ∧ (grantPort s).identity = s.identity ∧
      (grantPort s).win = s.win ∧ (grantPort s).mark = s.mark ∧ (grantPort s).marker = s.marker ∧
      (grantPort s).ctl = s.ctl ∧ (grantPort s).pool = s.pool ∧ (grantPort s).pointer = s.pointer ∧
      (grantPort s).freeze = s.freeze ∧ (grantPort s).causes = s.causes ∧ (grantPort s).timing = s.timing ∧
      (grantPort s).mg = s.mg := by
  unfold grantPort
  try dsimp only
  (repeat' split) <;> simp

@[simp] theorem retire_frame (s : State) :
      (retire s).pending = s.pending ∧ (retire s).lines = s.lines ∧ (retire s).identity = s.identity ∧
      (retire s).cp = s.cp ∧ (retire s).mp = s.mp ∧ (retire s).background = s.background ∧ (retire s).win = s.win ∧
      (retire s).mark = s.mark ∧ (retire s).marker = s.marker ∧ (retire s).pool = s.pool ∧
      (retire s).image = s.image ∧ (retire s).pointer = s.pointer ∧ (retire s).sampler = s.sampler ∧
      (retire s).fill = s.fill ∧ (retire s).reissue = s.reissue ∧ (retire s).freeze = s.freeze ∧
      (retire s).causes = s.causes ∧ (retire s).timing = s.timing ∧ (retire s).mg = s.mg := by
  unfold retire
  try dsimp only
  (repeat' split) <;> simp

@[simp] theorem releaseMark_frame (o : Outstanding) (s : State) :
      (releaseMark o s).pending = s.pending ∧ (releaseMark o s).lines = s.lines ∧
      (releaseMark o s).identity = s.identity ∧ (releaseMark o s).background = s.background ∧
      (releaseMark o s).mark = s.mark ∧ (releaseMark o s).marker = s.marker ∧ (releaseMark o s).pointer = s.pointer := by
  unfold releaseMark
  try dsimp only
  (repeat' split) <;> simp

@[simp] theorem afterRetirement_frame (b s : State) :
      (afterRetirement b s).pending = s.pending ∧ (afterRetirement b s).lines = s.lines ∧
      (afterRetirement b s).identity = s.identity ∧ (afterRetirement b s).background = s.background ∧
      (afterRetirement b s).mark = s.mark ∧ (afterRetirement b s).marker = s.marker ∧
      (afterRetirement b s).pointer = s.pointer := by
  unfold afterRetirement
  try dsimp only
  (repeat' split) <;> simp

@[simp] theorem retireWhole_frame (s : State) :
      (retireWhole s).pending = s.pending ∧ (retireWhole s).lines = s.lines ∧ (retireWhole s).identity = s.identity ∧
      (retireWhole s).background = s.background ∧ (retireWhole s).mark = s.mark ∧ (retireWhole s).marker = s.marker ∧
      (retireWhole s).pointer = s.pointer := by
  unfold retireWhole
  try dsimp only
  (repeat' split) <;> simp

@[simp] theorem endPoolStall_frame (o : Outstanding) (s : State) :
      (endPoolStall o s).pending = s.pending ∧ (endPoolStall o s).lines = s.lines ∧
      (endPoolStall o s).identity = s.identity ∧ (endPoolStall o s).background = s.background ∧
      (endPoolStall o s).mark = s.mark ∧ (endPoolStall o s).marker = s.marker ∧ (endPoolStall o s).pointer = s.pointer := by
  unfold endPoolStall
  try dsimp only
  (repeat' split) <;> simp

@[simp] theorem endMarkStall_frame (o : Outstanding) (s : State) :
      (endMarkStall o s).pending = s.pending ∧ (endMarkStall o s).lines = s.lines ∧
      (endMarkStall o s).identity = s.identity ∧ (endMarkStall o s).background = s.background ∧
      (endMarkStall o s).mark = s.mark ∧ (endMarkStall o s).marker = s.marker ∧ (endMarkStall o s).pointer = s.pointer := by
  unfold endMarkStall
  try dsimp only
  (repeat' split) <;> simp

@[simp] theorem endEndingStall_frame (o : Outstanding) (s : State) :
      (endEndingStall o s).pending = s.pending ∧ (endEndingStall o s).lines = s.lines ∧
      (endEndingStall o s).identity = s.identity ∧ (endEndingStall o s).background = s.background ∧
      (endEndingStall o s).mark = s.mark ∧ (endEndingStall o s).marker = s.marker ∧
      (endEndingStall o s).pointer = s.pointer := by
  unfold endEndingStall
  try dsimp only
  (repeat' split) <;> simp

@[simp] theorem enterArmed_frame (s : State) :
      (enterArmed s).pending = s.pending ∧ (enterArmed s).lines = s.lines ∧ (enterArmed s).identity = s.identity ∧
      (enterArmed s).cp = s.cp ∧ (enterArmed s).mp = s.mp ∧ (enterArmed s).background = s.background ∧
      (enterArmed s).win = s.win ∧ (enterArmed s).mark = s.mark ∧ (enterArmed s).marker = s.marker ∧
      (enterArmed s).pool = s.pool ∧ (enterArmed s).image = s.image ∧ (enterArmed s).pointer = s.pointer ∧
      (enterArmed s).sampler = s.sampler ∧ (enterArmed s).release = s.release ∧ (enterArmed s).fill = s.fill ∧
      (enterArmed s).reissue = s.reissue ∧ (enterArmed s).causes = s.causes ∧ (enterArmed s).mg = s.mg := by
  unfold enterArmed
  try dsimp only
  simp

@[simp] theorem putWindow_frame (n : WinIdx) (w : Window) (s : State) :
      (putWindow n w s).pending = s.pending ∧ (putWindow n w s).lines = s.lines ∧
      (putWindow n w s).identity = s.identity ∧ (putWindow n w s).cp = s.cp ∧ (putWindow n w s).mp = s.mp ∧
      (putWindow n w s).background = s.background ∧ (putWindow n w s).mark = s.mark ∧
      (putWindow n w s).marker = s.marker ∧ (putWindow n w s).ctl = s.ctl ∧ (putWindow n w s).pool = s.pool ∧
      (putWindow n w s).image = s.image ∧ (putWindow n w s).pointer = s.pointer ∧
      (putWindow n w s).sampler = s.sampler ∧ (putWindow n w s).release = s.release ∧
      (putWindow n w s).fill = s.fill ∧ (putWindow n w s).reissue = s.reissue ∧ (putWindow n w s).freeze = s.freeze ∧
      (putWindow n w s).causes = s.causes ∧ (putWindow n w s).timing = s.timing ∧ (putWindow n w s).mg = s.mg := by
  unfold putWindow
  try dsimp only
  simp

@[simp] theorem installWindow_frame (n : WinIdx) (s : State) :
      (installWindow n s).pending = s.pending ∧ (installWindow n s).lines = s.lines ∧
      (installWindow n s).identity = s.identity ∧ (installWindow n s).cp = s.cp ∧ (installWindow n s).mp = s.mp ∧
      (installWindow n s).background = s.background ∧ (installWindow n s).mark = s.mark ∧
      (installWindow n s).marker = s.marker ∧ (installWindow n s).ctl = s.ctl ∧ (installWindow n s).pool = s.pool ∧
      (installWindow n s).pointer = s.pointer ∧ (installWindow n s).sampler = s.sampler ∧
      (installWindow n s).release = s.release ∧ (installWindow n s).fill = s.fill ∧
      (installWindow n s).reissue = s.reissue ∧ (installWindow n s).freeze = s.freeze ∧
      (installWindow n s).causes = s.causes ∧ (installWindow n s).timing = s.timing ∧ (installWindow n s).mg = s.mg := by
  unfold installWindow
  try dsimp only
  simp

@[simp] theorem dropDefined_frame (n : WinIdx) (s : State) :
      (dropDefined n s).pending = s.pending ∧ (dropDefined n s).lines = s.lines ∧
      (dropDefined n s).identity = s.identity ∧ (dropDefined n s).cp = s.cp ∧ (dropDefined n s).mp = s.mp ∧
      (dropDefined n s).background = s.background ∧ (dropDefined n s).mark = s.mark ∧
      (dropDefined n s).marker = s.marker ∧ (dropDefined n s).ctl = s.ctl ∧ (dropDefined n s).pool = s.pool ∧
      (dropDefined n s).pointer = s.pointer ∧ (dropDefined n s).sampler = s.sampler ∧
      (dropDefined n s).release = s.release ∧ (dropDefined n s).fill = s.fill ∧
      (dropDefined n s).reissue = s.reissue ∧ (dropDefined n s).freeze = s.freeze ∧
      (dropDefined n s).causes = s.causes ∧ (dropDefined n s).timing = s.timing ∧ (dropDefined n s).mg = s.mg := by
  unfold dropDefined
  try dsimp only
  (repeat' split) <;> simp

@[simp] theorem answer_frame (a : Status) (d : Word) (s : State) :
      (answer a d s).pending = s.pending ∧ (answer a d s).lines = s.lines ∧ (answer a d s).identity = s.identity ∧
      (answer a d s).cp = s.cp ∧ (answer a d s).mp = s.mp ∧ (answer a d s).background = s.background ∧
      (answer a d s).win = s.win ∧ (answer a d s).mark = s.mark ∧ (answer a d s).marker = s.marker ∧
      (answer a d s).ctl = s.ctl ∧ (answer a d s).pool = s.pool ∧ (answer a d s).image = s.image ∧
      (answer a d s).pointer = s.pointer ∧ (answer a d s).sampler = s.sampler ∧ (answer a d s).release = s.release ∧
      (answer a d s).fill = s.fill ∧ (answer a d s).reissue = s.reissue ∧ (answer a d s).freeze = s.freeze ∧
      (answer a d s).causes = s.causes ∧ (answer a d s).timing = s.timing := by
  unfold answer
  try dsimp only
  simp

@[simp] theorem ackReply_frame (s : State) :
      (ackReply s).pending = s.pending ∧ (ackReply s).lines = s.lines ∧ (ackReply s).identity = s.identity ∧
      (ackReply s).cp = s.cp ∧ (ackReply s).mp = s.mp ∧ (ackReply s).background = s.background ∧
      (ackReply s).win = s.win ∧ (ackReply s).mark = s.mark ∧ (ackReply s).marker = s.marker ∧
      (ackReply s).ctl = s.ctl ∧ (ackReply s).pool = s.pool ∧ (ackReply s).image = s.image ∧
      (ackReply s).pointer = s.pointer ∧ (ackReply s).sampler = s.sampler ∧ (ackReply s).release = s.release ∧
      (ackReply s).fill = s.fill ∧ (ackReply s).reissue = s.reissue ∧ (ackReply s).freeze = s.freeze ∧
      (ackReply s).causes = s.causes ∧ (ackReply s).timing = s.timing := by
  unfold ackReply
  try dsimp only
  simp

@[simp] theorem refuse_frame (r : Reason) (s : State) :
      (refuse r s).pending = s.pending ∧ (refuse r s).lines = s.lines ∧ (refuse r s).identity = s.identity ∧
      (refuse r s).cp = s.cp ∧ (refuse r s).mp = s.mp ∧ (refuse r s).background = s.background ∧
      (refuse r s).win = s.win ∧ (refuse r s).mark = s.mark ∧ (refuse r s).marker = s.marker ∧
      (refuse r s).ctl = s.ctl ∧ (refuse r s).pool = s.pool ∧ (refuse r s).image = s.image ∧
      (refuse r s).pointer = s.pointer ∧ (refuse r s).sampler = s.sampler ∧ (refuse r s).release = s.release ∧
      (refuse r s).fill = s.fill ∧ (refuse r s).reissue = s.reissue ∧ (refuse r s).freeze = s.freeze ∧
      (refuse r s).causes = s.causes ∧ (refuse r s).timing = s.timing := by
  unfold refuse
  try dsimp only
  simp

@[simp] theorem takeInFlight_frame (c : InFlight) (s : State) :
      (takeInFlight c s).pending = s.pending ∧ (takeInFlight c s).lines = s.lines ∧
      (takeInFlight c s).identity = s.identity ∧ (takeInFlight c s).cp = s.cp ∧ (takeInFlight c s).mp = s.mp ∧
      (takeInFlight c s).background = s.background ∧ (takeInFlight c s).win = s.win ∧
      (takeInFlight c s).mark = s.mark ∧ (takeInFlight c s).marker = s.marker ∧ (takeInFlight c s).ctl = s.ctl ∧
      (takeInFlight c s).pool = s.pool ∧ (takeInFlight c s).image = s.image ∧ (takeInFlight c s).pointer = s.pointer ∧
      (takeInFlight c s).sampler = s.sampler ∧ (takeInFlight c s).release = s.release ∧
      (takeInFlight c s).fill = s.fill ∧ (takeInFlight c s).reissue = s.reissue ∧
      (takeInFlight c s).freeze = s.freeze ∧ (takeInFlight c s).causes = s.causes ∧
      (takeInFlight c s).timing = s.timing := by
  unfold takeInFlight
  try dsimp only
  simp

@[simp] theorem freezeWindow_frame (n : WinIdx) (s : State) :
      (freezeWindow n s).pending = s.pending ∧ (freezeWindow n s).lines = s.lines ∧
      (freezeWindow n s).identity = s.identity ∧ (freezeWindow n s).cp = s.cp ∧ (freezeWindow n s).mp = s.mp ∧
      (freezeWindow n s).background = s.background ∧ (freezeWindow n s).mark = s.mark ∧
      (freezeWindow n s).marker = s.marker ∧ (freezeWindow n s).ctl = s.ctl ∧ (freezeWindow n s).pool = s.pool ∧
      (freezeWindow n s).image = s.image ∧ (freezeWindow n s).pointer = s.pointer ∧
      (freezeWindow n s).sampler = s.sampler ∧ (freezeWindow n s).release = s.release ∧
      (freezeWindow n s).fill = s.fill ∧ (freezeWindow n s).reissue = s.reissue ∧
      (freezeWindow n s).causes = s.causes ∧ (freezeWindow n s).timing = s.timing ∧ (freezeWindow n s).mg = s.mg := by
  unfold freezeWindow
  try dsimp only
  (repeat' split) <;> simp

@[simp] theorem thawWindow_frame (n : WinIdx) (s : State) :
      (thawWindow n s).pending = s.pending ∧ (thawWindow n s).lines = s.lines ∧
      (thawWindow n s).identity = s.identity ∧ (thawWindow n s).cp = s.cp ∧
      (thawWindow n s).background = s.background ∧ (thawWindow n s).mark = s.mark ∧
      (thawWindow n s).marker = s.marker ∧ (thawWindow n s).ctl = s.ctl ∧ (thawWindow n s).pool = s.pool ∧
      (thawWindow n s).image = s.image ∧ (thawWindow n s).pointer = s.pointer ∧ (thawWindow n s).sampler = s.sampler ∧
      (thawWindow n s).release = s.release ∧ (thawWindow n s).reissue = s.reissue ∧
      (thawWindow n s).causes = s.causes ∧ (thawWindow n s).timing = s.timing ∧ (thawWindow n s).mg = s.mg := by
  unfold thawWindow
  try dsimp only
  (repeat' split) <;> simp

@[simp] theorem handOver_foldl_frame (l : List WinIdx) (s : State) :
    (l.foldl (fun t n => handOver n t) s).pending = s.pending ∧
    (l.foldl (fun t n => handOver n t) s).lines = s.lines ∧
    (l.foldl (fun t n => handOver n t) s).identity = s.identity ∧
    (l.foldl (fun t n => handOver n t) s).cp = s.cp ∧
    (l.foldl (fun t n => handOver n t) s).background = s.background ∧
    (l.foldl (fun t n => handOver n t) s).win = s.win ∧
    (l.foldl (fun t n => handOver n t) s).mark = s.mark ∧
    (l.foldl (fun t n => handOver n t) s).marker = s.marker ∧
    (l.foldl (fun t n => handOver n t) s).ctl = s.ctl ∧
    (l.foldl (fun t n => handOver n t) s).pool = s.pool ∧
    (l.foldl (fun t n => handOver n t) s).image = s.image ∧
    (l.foldl (fun t n => handOver n t) s).pointer = s.pointer ∧
    (l.foldl (fun t n => handOver n t) s).sampler = s.sampler ∧
    (l.foldl (fun t n => handOver n t) s).release = s.release ∧
    (l.foldl (fun t n => handOver n t) s).reissue = s.reissue ∧
    (l.foldl (fun t n => handOver n t) s).freeze = s.freeze ∧
    (l.foldl (fun t n => handOver n t) s).causes = s.causes ∧
    (l.foldl (fun t n => handOver n t) s).timing = s.timing ∧
    (l.foldl (fun t n => handOver n t) s).mg = s.mg := by
  induction l generalizing s with
  | nil => simp
  | cons n l ih => simp only [List.foldl_cons, ih, handOver_frame, and_self]

@[simp] theorem thawAll_frame (l : List WinIdx) (s : State) :
      (thawAll l s).pending = s.pending ∧ (thawAll l s).lines = s.lines ∧ (thawAll l s).identity = s.identity ∧
      (thawAll l s).background = s.background ∧ (thawAll l s).mark = s.mark ∧ (thawAll l s).marker = s.marker ∧
      (thawAll l s).pointer = s.pointer := by
  unfold thawAll
  simp only [reroute_frame]
  cases s.ctl.mode <;> simp

@[simp] theorem freezeExpiry_frame (b : Bool) (s : State) :
      (freezeExpiry b s).pending = s.pending ∧ (freezeExpiry b s).lines = s.lines ∧
      (freezeExpiry b s).identity = s.identity ∧ (freezeExpiry b s).background = s.background ∧
      (freezeExpiry b s).mark = s.mark ∧ (freezeExpiry b s).marker = s.marker ∧ (freezeExpiry b s).pointer = s.pointer := by
  unfold freezeExpiry
  try dsimp only
  (repeat' split) <;> simp

@[simp] theorem closeFrame_frame (s : State) :
      (closeFrame s).pending = s.pending ∧ (closeFrame s).lines = s.lines ∧ (closeFrame s).identity = s.identity ∧
      (closeFrame s).cp = s.cp ∧ (closeFrame s).mp = s.mp ∧ (closeFrame s).background = s.background ∧
      (closeFrame s).win = s.win ∧ (closeFrame s).mark = s.mark ∧ (closeFrame s).marker = s.marker ∧
      (closeFrame s).ctl = s.ctl ∧ (closeFrame s).pool = s.pool ∧ (closeFrame s).image = s.image ∧
      (closeFrame s).pointer = s.pointer ∧ (closeFrame s).sampler = s.sampler ∧ (closeFrame s).release = s.release ∧
      (closeFrame s).fill = s.fill ∧ (closeFrame s).reissue = s.reissue ∧ (closeFrame s).freeze = s.freeze ∧
      (closeFrame s).causes = s.causes ∧ (closeFrame s).timing = s.timing := by
  unfold closeFrame
  try dsimp only
  simp

@[simp] theorem errorFrame_frame (r : Option Reply) (s : State) :
      (errorFrame r s).pending = s.pending ∧ (errorFrame r s).lines = s.lines ∧
      (errorFrame r s).identity = s.identity ∧ (errorFrame r s).background = s.background ∧
      (errorFrame r s).mark = s.mark ∧ (errorFrame r s).marker = s.marker ∧ (errorFrame r s).image = s.image ∧
      (errorFrame r s).pointer = s.pointer := by
  unfold errorFrame
  try dsimp only
  simp

end Sys2Proof.Machine
end

