-- ==== Sys2Proof/Laws/Windows.lean ====
section
/-! SUPPORT. The window table: what a window is after a change of the table. -/

namespace Sys2Proof.Machine

theorem mem_allWin (n : WinIdx) : n ∈ allWin := by
  revert n; decide

/-- Window `n` after a change of every window. -/
@[simp] theorem mapWin_get (f : WinIdx → Window → Window) (v : Windows) (n : WinIdx) : (mapWin f v)[n] = f n v[n] := by
  fin_cases n <;> rfl

/-- The same for an index as simp writes it. -/
@[simp] theorem mapWin_getElem (f : WinIdx → Window → Window) (v : Windows) (i : Nat) (h : i < 16) :
    (mapWin f v)[i] = f ⟨i, h⟩ v[i] :=
  mapWin_get f v ⟨i, h⟩

/-- Window `m` after window `n` has been given a freeze state. -/
theorem setFreezeState_get (ws : Windows) (n m : WinIdx) (f : Freeze) :
    (setFreezeState ws n f)[m] = if n = m then { ws[m] with freeze := f } else ws[m] := by
  unfold setFreezeState
  by_cases h : n = m
  · subst h; simp
  · have : (n : Nat) ≠ m := fun e => h (Fin.ext e)
    simp [h, this]

/-- A freeze state changes no record, descriptor or Defined. -/
theorem setFreezeState_rest (ws : Windows) (n m : WinIdx) (f : Freeze) :
    (setFreezeState ws n f)[m].record = ws[m].record ∧ (setFreezeState ws n f)[m].descriptor = ws[m].descriptor ∧
      (setFreezeState ws n f)[m].defined = ws[m].defined := by
  rw [setFreezeState_get]
  split <;> exact ⟨rfl, rfl, rfl⟩

/-- Settling changes no record, descriptor or Defined, and leaves OPEN or FROZEN. -/
theorem settlePending_get (ws : Windows) (n : WinIdx) :
    (settlePending ws)[n] = { ws[n] with freeze := match ws[n].freeze with
      | .freezePending => .frozen
      | .thawPending => .opened
      | .opened => .opened
      | .frozen => .frozen } := by
  unfold settlePending
  rw [mapWin_get]
  generalize ws[n] = w
  obtain ⟨d, r, b, f⟩ := w
  cases f <;> rfl

/-- The freeze state a window has once pending states have settled (R112, R114). -/
def Freeze.settled : Freeze → Freeze
  | .freezePending => .frozen
  | .thawPending => .opened
  | .opened => .opened
  | .frozen => .frozen

/-- The same for an index as simp writes it. -/
@[simp] theorem settlePending_getElem (ws : Windows) (i : Nat) (h : i < 16) :
    (settlePending ws)[i] = { ws[i] with freeze := ws[i].freeze.settled } := by
  have := settlePending_get ws ⟨i, h⟩
  simp only [Fin.getElem_fin] at this
  rw [this]
  generalize ws[i] = w
  obtain ⟨d, r, b, f⟩ := w
  cases f <;> rfl

/-- Settled states are OPEN or FROZEN, and OPEN stays OPEN. -/
@[simp] theorem Freeze.settled_ne (f : Freeze) : f.settled ≠ .freezePending ∧ f.settled ≠ .thawPending := by
  cases f <;> decide

@[simp] theorem Freeze.settled_opened : Freeze.settled .opened = .opened := rfl

/-- Whether an address lies in a window depends on its record and Defined alone. -/
theorem findWin_congr {ws vs : Windows} (h : ∀ n : WinIdx, vs[n].record = ws[n].record ∧ vs[n].defined = ws[n].defined)
    (a : Addr) : findWin vs a = findWin ws a := by
  unfold findWin
  congr 1
  funext n
  unfold Window.covers
  rw [(h n).1, (h n).2]

/-- A window an address lies in is defined and covers it. -/
theorem covers_of_findWin {ws : Windows} {a : Addr} {n : WinIdx} (h : findWin ws a = some n) : ws[n].covers a = true := by
  have := List.find?_some h
  exact this

end Sys2Proof.Machine
end

