-- ==== Sys2Proof/Laws/Routing.lean ====
section
/-! SUPPORT. Classes of accesses, routing anew, and the freeze timer after a change of the frozen set. -/

namespace Sys2Proof.Machine

/-- An access of an input class lies in its window at the taking, which is an INPUT window (R11). -/
theorem covers_of_classify_input {s : State} {a : Access} {n : WinIdx} (h : classify s a = .input n) :
    (s.win[n]).covers a.addr = true ∧ (s.win[n]).record.kind = .input := by
  unfold classify at h
  split at h
  · simp at h
  · split at h
    · simp at h
    · rename_i m hm
      split at h <;> simp at h
      rename_i hk
      subst h
      exact ⟨covers_of_findWin hm, hk⟩

/-- An access of an output class lies in its window at the taking, which is an OUTPUT window (R11). -/
theorem covers_of_classify_output {s : State} {a : Access} {n : WinIdx} (h : classify s a = .output n) :
    (s.win[n]).covers a.addr = true ∧ (s.win[n]).record.kind = .output := by
  unfold classify at h
  split at h
  · simp at h
  · split at h
    · simp at h
    · rename_i m hm
      split at h <;> simp at h
      rename_i hk
      subst h
      exact ⟨covers_of_findWin hm, hk⟩

/-- A window that holds an address, and is of the kind asked for, has a word of its image slice for it. -/
theorem imageWord_of_covers {ws : Windows} {k : Kind} {n : WinIdx} {a : Addr} (h : (ws[n]).covers a = true ∧ (ws[n]).record.kind = k) :
    imageWord ws k n a = some ((ws[n]).imageAt ((ws[n]).placeOf a)) := if_pos h

theorem routedBy_iff (before s : State) (c : AccessClass) :
    routedBy before s c = true ↔ before.ctl.mode ≠ s.ctl.mode ∨
      ∃ n, (c = .input n ∨ c = .output n) ∧ (before.win[n]).freeze ≠ (s.win[n]).freeze := by
  unfold routedBy freezeOf
  cases c <;> simp

/-- With no access outstanding there is nothing to route anew. -/
theorem reroute_of_not_outstanding {before s : State} (h : ∀ o, s.cp ≠ .outstanding o) : reroute before s = s := by
  unfold reroute
  cases hc : s.cp with
  | outstanding o => exact absurd hc (h o)
  | _ => rfl

/-- An access that waits is routed anew where what it is routed by has changed, and stays as it is where it has not (R15). -/
theorem reroute_of_outstanding {before s : State} {o : Outstanding} (h : s.cp = .outstanding o) :
    reroute before s = if o.wait.movable = true ∧ routedBy before s o.cls = true then route false o s else s := by
  unfold reroute
  rw [h]
  simp only [Bool.and_eq_true]

/-! ## What stood at the Controller Port -/

/-- The head record takes its stage whatever stands at the Controller Port. -/
theorem settleHead_setCp (c : CpState) (s : State) : settleHead (s.setCp c) = (settleHead s).setCp c := by
  unfold settleHead
  simp only [State.setCp_release, State.setCp_win, State.setCp_image, State.setCp_marker]
  rcases s.release.queue with - | ⟨r, rest⟩
  · rfl
  · by_cases he : r.entries = []
    · simp only [he, ne_eq, not_true_eq_false, if_false]
      rcases seekFlush s.win s.image r.flushSet (flushStart s.release.flushPos r.flushSet) with ⟨set, - | p⟩
      · cases s.marker.enabled <;> rfl
      · rfl
    · simp only [he, ne_eq, not_false_eq_true, if_true]
      rfl

/-- A boundary reads nothing of the Controller Port and writes nothing there. -/
theorem boundary_setCp (c : CpState) (s : State) : boundary (s.setCp c) = (boundary s).setCp c := by
  have h : boundaryWalk s.ctl.stopPending s.win (boundaryControl (boundaryFreeze (boundaryPool (s.setCp c)))) =
      (boundaryWalk s.ctl.stopPending s.win (boundaryControl (boundaryFreeze (boundaryPool s)))).setCp c := by
    unfold boundaryWalk
    split <;> rfl
  unfold boundary
  simp only [State.setCp_ctl, State.setCp_win, State.setCp_release, h, State.setCp_mp, settleHead_setCp]
  split <;> rfl

/-- A write into the image has nothing to do with the Controller Port. -/
theorem writeImage_setCp (n : WinIdx) (a : Addr) (l : Lanes) (v : Word) (f : Marks → Marks) (c : CpState) (s : State) :
    writeImage n a l v f (s.setCp c) = (writeImage n a l v f s).setCp c := by
  unfold writeImage
  simp only [State.setCp_win]
  split <;> rfl

/-- A torn write writes the Controller Port whatever stood there. -/
theorem tornWrite_setCp (g : Bool) (n : WinIdx) (o : Outstanding) (c : CpState) (s : State) :
    tornWrite g n o (s.setCp c) = tornWrite g n o s := by
  have hm : markTorn (s.setCp c) = (markTorn s).setCp c := rfl
  unfold tornWrite
  simp only [hm, State.setCp_win, writeImage_setCp]
  rfl

/-- So does a staged write, in each of its cases. -/
theorem stageWrite_setCp (g : Bool) (n : WinIdx) (o : Outstanding) (c : CpState) (s : State) :
    stageWrite g n o (s.setCp c) = stageWrite g n o s := by
  unfold stageWrite
  simp only [tornWrite_setCp]
  rfl

/-- So does a treatment carried out; a staged write is none of these. -/
theorem carryOut_setCp {t : Treatment} (h : ∀ n, t ≠ .staged n) (o : Outstanding) (c : CpState) (s : State) :
    carryOut t o (s.setCp c) = carryOut t o s := by
  cases t
  case imageOwed n => simp only [carryOut, writeImage_setCp]; rfl
  case staged n => exact absurd rfl (h n)
  all_goals rfl

/-- Routing an access that waits for a pass reads nothing of what stands at the Controller Port. -/
theorem route_setCp {g : Bool} {o : Outstanding} (h : o.wait = .service .pass) (c : CpState) (s : State) :
    route g o (s.setCp c) = route g o s := by
  have ht : treatmentOf (s.setCp c) o.cls o.access = treatmentOf s o.cls o.access := rfl
  have hs : ¬(o.wait = .poolStall ∨ o.wait = .service .torn) := by rw [h]; decide
  have hb : markInRun o (s.setCp c) = markInRun o s := by
    unfold markInRun
    simp only [boundary_setCp]
    rfl
  have hf : firstMark (s.setCp c) = (firstMark s).setCp c := rfl
  unfold route
  rw [ht]
  split
  · cases o.effectTaken <;> rfl
  · simp only [hb]; rfl
  · rfl
  · rfl
  · simp only [hs, if_false]; exact stageWrite_setCp ..
  · rename_i h
    exact carryOut_setCp h o c s

/-! ## The freeze timer -/

/-- The freeze timer follows the frozen set (R117). -/
theorem TimerFollows.of_follow (f : FreezeControl) (before after : Windows) :
    TimerFollows f (f.follow before after) (frozenSet before) (frozenSet after) := by
  unfold FreezeControl.follow TimerFollows
  cases h : frozenSet before <;> cases h' : frozenSet after <;>
    simp [FreezeControl.startTimer, FreezeControl.stopTimer]

end Sys2Proof.Machine
end

