-- ==== Sys2Proof/Laws/Memory.lean ====
section
/-! SUPPORT. Sparse memory, lanes and the image store: what a read gives after a write, and that every operation keeps the canonical
form. -/

namespace Sys2Proof.Machine

/-! ## Sparse memory -/

section
variable {α : Type} [DecidableEq α] (d : α)

omit [DecidableEq α] in
theorem Memory.read_nil (a : Nat) : Memory.read d ([] : List (Nat × α)) a = d := rfl

omit [DecidableEq α] in
/-- An address below every listed one reads as unlisted. -/
theorem Memory.read_of_lt (m : List (Nat × α)) (a : Nat) (h : ∀ c ∈ m, a < c.1) : Memory.read d m a = d := by
  induction m with
  | nil => rfl
  | cons c t ih =>
    obtain ⟨k, v⟩ := c
    have hk : a < k := h _ (List.mem_cons_self ..)
    rw [Memory.read, if_neg (by omega)]
    exact ih fun c hc => h c (List.mem_cons_of_mem _ hc)

/-- Every cell after a write was listed before or is the cell written. -/
theorem Memory.mem_write {m : List (Nat × α)} {a : Nat} {v : α} {c : Nat × α} (h : c ∈ Memory.write d m a v) :
    c ∈ m ∨ (c = (a, v) ∧ v ≠ d) := by
  induction m with
  | nil =>
    unfold Memory.write at h
    split at h <;> simp_all
  | cons x t ih =>
    obtain ⟨k, u⟩ := x
    unfold Memory.write at h
    split at h
    · split at h <;> (simp_all; try tauto)
    · split at h
      · split at h <;> (simp_all; try tauto)
      · rcases List.mem_cons.1 h with h | h
        · exact Or.inl (h ▸ List.mem_cons_self ..)
        · rcases ih h with h | h
          · exact Or.inl (List.mem_cons_of_mem _ h)
          · exact Or.inr h

/-- A write keeps the canonical form. -/
theorem Memory.wf_write {m : List (Nat × α)} (h : Memory.wf d m) (a : Nat) (v : α) :
    Memory.wf d (Memory.write d m a v) := by
  obtain ⟨hs, hd⟩ := h
  refine ⟨?_, fun c hc => ?_⟩
  · induction m with
    | nil => unfold Memory.write; split <;> simp
    | cons x t ih =>
      obtain ⟨k, u⟩ := x
      have hk := List.pairwise_cons.1 hs
      unfold Memory.write
      split
      · split
        · exact hs
        · refine List.pairwise_cons.2 ⟨fun c hc => ?_, hs⟩
          rcases List.mem_cons.1 hc with h | h
          · subst h; assumption
          · exact lt_trans (by assumption) (hk.1 c h)
      · split
        · subst_vars
          split
          · exact hk.2
          · exact List.pairwise_cons.2 ⟨hk.1, hk.2⟩
        · refine List.pairwise_cons.2 ⟨fun c hc => ?_, ih hk.2 fun c hc => hd c (List.mem_cons_of_mem _ hc)⟩
          rcases Memory.mem_write d hc with h | ⟨h, _⟩
          · exact hk.1 c h
          · subst h; simp only; omega
  · rcases Memory.mem_write d hc with h | ⟨h, h'⟩
    · exact hd c h
    · subst h; exact h'

/-- What an address reads as after a write, in a memory in canonical form. -/
theorem Memory.read_write {m : List (Nat × α)} (h : Memory.wf d m) (a b : Nat) (v : α) :
    Memory.read d (Memory.write d m a v) b = if a = b then v else Memory.read d m b := by
  have hs := h.1
  clear h
  induction m with
  | nil =>
    unfold Memory.write
    split <;> rename_i hv
    · subst hv; split <;> rfl
    · simp [Memory.read]
  | cons x t ih =>
    obtain ⟨k, u⟩ := x
    have hk := List.pairwise_cons.1 hs
    unfold Memory.write
    split
    · rename_i hlt
      split
      · rename_i hv
        subst hv
        split
        · rename_i hab
          subst hab
          rw [Memory.read, if_neg (by omega)]
          exact Memory.read_of_lt v t a fun c hc => lt_trans hlt (hk.1 c hc)
        · rfl
      · simp [Memory.read]
    · split
      · rename_i hak
        subst hak
        split
        · rename_i hv
          subst hv
          by_cases hab : a = b
          · subst hab
            rw [if_pos rfl]
            exact Memory.read_of_lt v t a fun c hc => hk.1 c hc
          · simp [Memory.read, hab]
        · by_cases hab : a = b <;> simp [Memory.read, hab]
      · rename_i hne
        by_cases hkb : k = b
        · subst hkb
          simp [Memory.read, hne]
        · simp only [Memory.read, if_neg hkb]
          exact ih hk.2

/-- A change of every listed cell keeps the canonical form. -/
theorem Memory.wf_update {m : List (Nat × α)} (h : Memory.wf d m) (f : Nat → α → α) :
    Memory.wf d (Memory.update d f m) := by
  obtain ⟨hs, _⟩ := h
  refine ⟨?_, fun c hc => ?_⟩
  · unfold Memory.update
    rw [List.pairwise_filterMap]
    refine hs.imp ?_
    intro x y hxy p hp q hq
    split at hp <;> split at hq <;> simp_all
    subst_vars
    exact hxy
  · unfold Memory.update at hc
    obtain ⟨x, _, hx⟩ := List.mem_filterMap.1 hc
    split at hx <;> simp_all
    subst_vars
    assumption

/-- What an address reads as after a change that leaves an unlisted cell as it is. -/
theorem Memory.read_update {m : List (Nat × α)} (h : Memory.wf d m) (f : Nat → α → α) (hf : ∀ k, f k d = d) (a : Nat) :
    Memory.read d (Memory.update d f m) a = f a (Memory.read d m a) := by
  have hs := h.1
  clear h
  induction m with
  | nil => simp [Memory.update, Memory.read, hf]
  | cons x t ih =>
    obtain ⟨k, v⟩ := x
    have hk := List.pairwise_cons.1 hs
    have ih := ih hk.2
    unfold Memory.update at ih ⊢
    by_cases hv : f k v = d
    · simp only [List.filterMap_cons, hv, if_pos]
      by_cases hka : k = a
      · subst hka
        rw [ih]
        simp [Memory.read, hv, Memory.read_of_lt d t k fun c hc => hk.1 c hc, hf]
      · simp [Memory.read, hka, ih]
    · simp only [List.filterMap_cons, hv, if_neg, not_false_eq_true]
      by_cases hka : k = a
      · subst hka; simp [Memory.read]
      · simp [Memory.read, hka, ih]

end

/-! ## Lanes -/

theorem lane_ofLanes (b3 b2 b1 b0 : Byte) :
    lane 3 (ofLanes b3 b2 b1 b0) = b3 ∧ lane 2 (ofLanes b3 b2 b1 b0) = b2 ∧
      lane 1 (ofLanes b3 b2 b1 b0) = b1 ∧ lane 0 (ofLanes b3 b2 b1 b0) = b0 := by
  unfold lane ofLanes
  refine ⟨?_, ?_, ?_, ?_⟩ <;> apply BitVec.eq_of_getLsbD_eq <;> intro i hi <;>
    simp only [BitVec.getLsbD_extractLsb', BitVec.getLsbD_append, hi, decide_true, Bool.true_and]
  all_goals
    split_ifs <;> first | omega | (congr 1; omega)

/-- A merged word has the new byte on the lanes of the mask and the old byte on the others. -/
theorem lane_mergeLanes (k : Fin 4) (m : Lanes) (new old : Word) :
    lane k (mergeLanes m new old) = if m[k] then lane k new else lane k old := by
  have h := lane_ofLanes (if m[3] then lane 3 new else lane 3 old) (if m[2] then lane 2 new else lane 2 old)
    (if m[1] then lane 1 new else lane 1 old) (if m[0] then lane 0 new else lane 0 old)
  fin_cases k
  · exact h.2.2.2
  · exact h.2.2.1
  · exact h.2.1
  · exact h.1

end Sys2Proof.Machine
end

