-- ==== Sys2Proof/Laws/Store.lean ====
section
/-! SUPPORT. The image store: its canonical form is kept by every operation, and what its bytes and marks read as after one. -/

namespace Sys2Proof.Machine

theorem Store.wf_reset : Store.wf State.reset.image := by decide

theorem Store.wf_writeByteIf {m : List Host.Cell} (h : Memory.wf 0#8 m) (b : Bool) (a : Nat) (v : Byte) :
    Memory.wf 0#8 (writeByteIf b m a v) := by
  unfold writeByteIf
  split
  · exact Memory.wf_write _ h a v
  · exact h

theorem Store.wf_writeLanes {st : Store} (h : st.wf) (w : Nat) (l : Lanes) (v : Word) : (st.writeLanes w l v).wf :=
  ⟨Store.wf_writeByteIf (Store.wf_writeByteIf (Store.wf_writeByteIf (Store.wf_writeByteIf h.1 _ _ _) _ _ _) _ _ _) _ _ _,
    h.2⟩

theorem Store.wf_mark {st : Store} (h : st.wf) (w : Nat) (f : Marks → Marks) : (st.mark w f).wf :=
  ⟨h.1, Memory.wf_write _ h.2 _ _⟩

theorem Store.wf_clearMarks {st : Store} (h : st.wf) (p : Nat → Bool) : (st.clearMarks p).wf := by
  have := Memory.wf_update Marks.clear h.2 (fun w m => if p w then Marks.clear else m)
  exact ⟨h.1, this⟩

theorem Store.wf_clearFresh {st : Store} (h : st.wf) (p : Nat → Bool) : (st.clearFresh p).wf := by
  have := Memory.wf_update Marks.clear h.2 (fun w m => if p w then { m with fresh := false } else m)
  exact ⟨h.1, this⟩

theorem Store.wf_oweValid {st : Store} (h : st.wf) (p : Nat → Bool) : (st.oweValid p).wf := by
  have := Memory.wf_update Marks.clear h.2 (fun w m => if p w then { m with owed := m.valid } else m)
  exact ⟨h.1, this⟩

/-! ## Marks after an operation -/

@[simp] theorem Store.marksAt_writeLanes (st : Store) (w : Nat) (l : Lanes) (v : Word) (k : Nat) :
    (st.writeLanes w l v).marksAt k = st.marksAt k := rfl

@[simp] theorem Store.byte_mark (st : Store) (w : Nat) (f : Marks → Marks) (a : Nat) :
    (st.mark w f).byte a = st.byte a := rfl

@[simp] theorem Store.word_mark (st : Store) (w : Nat) (f : Marks → Marks) (k : Nat) :
    (st.mark w f).word k = st.word k := rfl

theorem Store.marksAt_mark {st : Store} (h : st.wf) (w : Nat) (f : Marks → Marks) (k : Nat) :
    (st.mark w f).marksAt k = if w = k then f (st.marksAt w) else st.marksAt k :=
  Memory.read_write _ h.2 w k _

theorem Store.marksAt_clearMarks {st : Store} (h : st.wf) (p : Nat → Bool) (k : Nat) :
    (st.clearMarks p).marksAt k = if p k then Marks.clear else st.marksAt k := by
  have := Memory.read_update Marks.clear h.2 (fun w m => if p w then Marks.clear else m) (fun k => by cases p k <;> rfl) k
  exact this

theorem Store.marksAt_clearFresh {st : Store} (h : st.wf) (p : Nat → Bool) (k : Nat) :
    (st.clearFresh p).marksAt k = if p k then { st.marksAt k with fresh := false } else st.marksAt k := by
  have := Memory.read_update Marks.clear h.2 (fun w m => if p w then { m with fresh := false } else m) (fun k => by cases p k <;> rfl) k
  exact this

theorem Store.marksAt_oweValid {st : Store} (h : st.wf) (p : Nat → Bool) (k : Nat) :
    (st.oweValid p).marksAt k = if p k then { st.marksAt k with owed := (st.marksAt k).valid } else st.marksAt k := by
  have := Memory.read_update Marks.clear h.2 (fun w m => if p w then { m with owed := m.valid } else m) (fun k => by cases p k <;> rfl) k
  exact this

/-! ## Bytes after a write of lanes -/

theorem Store.read_writeByteIf {m : List Host.Cell} (h : Memory.wf 0#8 m) (b : Bool) (a : Nat) (v : Byte) (k : Nat) :
    Memory.read 0#8 (writeByteIf b m a v) k = if b = true ∧ a = k then v else Memory.read 0#8 m k := by
  unfold writeByteIf
  cases b
  · simp
  · simp [Memory.read_write _ h]

/-- A byte after a write of lanes: lane k of the word holds the new byte where the lane is named, and every other byte of the
store is as it was. -/
theorem Store.byte_writeLanes {st : Store} (h : st.wf) (w : Nat) (l : Lanes) (v : Word) (j : Nat) (k : Fin 4) :
    (st.writeLanes w l v).byte (4 * j + k.val) = if j = w ∧ l[k] = true then lane k.val v else st.byte (4 * j + k.val) := by
  have h0 := h.1
  have h1 := Store.wf_writeByteIf h0 l[0] (4 * w) (lane 0 v)
  have h2 := Store.wf_writeByteIf h1 l[1] (4 * w + 1) (lane 1 v)
  have h3 := Store.wf_writeByteIf h2 l[2] (4 * w + 2) (lane 2 v)
  unfold Store.writeLanes Store.byte
  simp only
  rw [Store.read_writeByteIf h3, Store.read_writeByteIf h2, Store.read_writeByteIf h1, Store.read_writeByteIf h0]
  by_cases hw : j = w
  · subst hw
    fin_cases k <;> simp
  · have hne : ∀ a b : Nat, a < 4 → b < 4 → 4 * w + a ≠ 4 * j + b := by omega
    have e3 := hne 3 k.val (by decide) k.isLt
    have e2 := hne 2 k.val (by decide) k.isLt
    have e1 := hne 1 k.val (by decide) k.isLt
    have e0 : 4 * w ≠ 4 * j + k.val := hne 0 k.val (by decide) k.isLt
    simp [hw, e3, e2, e1, e0]

/-- The lanes of a store word are its four bytes. -/
theorem Store.lane_word (st : Store) (w : Nat) (k : Fin 4) : lane k.val (st.word w) = st.byte (4 * w + k.val) := by
  have h := lane_ofLanes (st.byte (4 * w + 3)) (st.byte (4 * w + 2)) (st.byte (4 * w + 1)) (st.byte (4 * w))
  fin_cases k
  · exact h.2.2.2
  · exact h.2.2.1
  · exact h.2.1
  · exact h.1

end Sys2Proof.Machine
end

