-- ==== Sys2Proof/Laws/Ends.lean ====
section
/-! SUPPORT. The end of a Memory Port access, once for the three commands that tell of it: the requester's own effects, MEMORY, and
whether the requester goes on. -/

namespace Sys2Proof.Machine

/-- The word on MP-D at the end, which a failed access does not use. -/
def AccessEnd.word : AccessEnd → Word
  | .acked data => data
  | .failed _ data => data
  | .timedOut => 0

@[simp] theorem AccessEnd.closes_mp (e : AccessEnd) (s : State) : (e.closes s).mp = none := by cases e <;> rfl

@[simp] theorem AccessEnd.closes_frame (e : AccessEnd) (s : State) :
    (e.closes s).pending = s.pending ∧ (e.closes s).identity = s.identity ∧ (e.closes s).cp = s.cp ∧
      (e.closes s).background = s.background ∧ (e.closes s).win = s.win ∧ (e.closes s).mark = s.mark ∧
      (e.closes s).marker = s.marker ∧ (e.closes s).ctl = s.ctl ∧ (e.closes s).pool = s.pool ∧ (e.closes s).image = s.image ∧
      (e.closes s).pointer = s.pointer ∧ (e.closes s).sampler = s.sampler ∧ (e.closes s).release = s.release ∧
      (e.closes s).fill = s.fill ∧ (e.closes s).reissue = s.reissue ∧ (e.closes s).freeze = s.freeze ∧
      (e.closes s).causes = s.causes ∧ (e.closes s).timing = s.timing ∧ (e.closes s).mg = s.mg := by
  cases e <;> simp [AccessEnd.closes]

/-- What the end of an access answers, whichever command tells of it. -/
theorem exec_accessEnd (e : AccessEnd) {s : State} {p : PortAccess} (hr : s.lines.resetHeld = false) (hm : s.mp = some p) :
    exec e.command s = .next (followLevel .stageLow (
      let u := ownerEnd p e.good e.word (e.closes s)
      if (e.latches u).ctl.mode = u.ctl.mode ∧ (e.latches u).reissue.resuming = u.reissue.resuming then
        goOn p.owner (e.latches u)
      else e.latches u)) := by
  cases e <;> simp [AccessEnd.command, exec, execMemoryPortAccessEnd, execMemoryPortTimeout, unlessReset, hr, accessEnded, hm,
    samplePort, AccessEnd.good, AccessEnd.word, AccessEnd.closes, AccessEnd.latches]

@[simp] theorem mode_enterSafe (s : State) : (enterSafe s).ctl.mode = .safe := by simp [enterSafe, safeControl]

theorem AccessEnd.goesOn_congr (e : AccessEnd) {s u : State} (hc : u.causes = s.causes) (hm : u.ctl.mode = s.ctl.mode)
    (hr : u.reissue.resuming = s.reissue.resuming) : e.goesOn u ↔ e.goesOn s := by
  unfold AccessEnd.goesOn
  rw [hc, hm, hr]

/-- Where the requester goes on, the failure has at most set the flag of MEMORY. -/
theorem AccessEnd.latches_of_goesOn (e : AccessEnd) {s : State} (h : e.goesOn s) : ∃ c, e.latches s = s.setCauses c := by
  unfold AccessEnd.latches
  cases hg : e.good
  · simp only [Bool.false_eq_true, if_false]
    unfold latch
    cases hf : s.causes.flag .memory
    · cases ha : s.causes.actionSafe .memory
      · exact ⟨s.causes.setFlag .memory, by simp only [Bool.false_eq_true, if_false]⟩
      · rcases h with h | h | h | h | ⟨h, h'⟩
        · simp [hg] at h
        · simp [hf] at h
        · simp [ha] at h
        · exact ⟨s.causes.setFlag .memory, by simp only [Bool.false_eq_true, if_false, if_true, h]⟩
        · exact ⟨s.causes.setFlag .memory, by simp only [Bool.false_eq_true, if_false, if_true, h, h']⟩
    · exact ⟨s.causes, rfl⟩
  · exact ⟨s.causes, rfl⟩

/-- The requester goes on exactly where the failure has neither entered SAFE nor ended a reissue (log 8). -/
theorem AccessEnd.goesOn_iff (e : AccessEnd) (s : State) :
    ((e.latches s).ctl.mode = s.ctl.mode ∧ (e.latches s).reissue.resuming = s.reissue.resuming) ↔ e.goesOn s := by
  constructor
  · intro h
    by_contra hn
    simp only [AccessEnd.goesOn, not_or, not_and, Bool.not_eq_true, Bool.not_eq_false] at hn
    obtain ⟨hg, hf, ha, hi, hs⟩ := hn
    have hl : e.latches s = latch .memory s := by simp [AccessEnd.latches, hg]
    rw [hl] at h
    unfold latch at h
    simp only [hf, ha, Bool.false_eq_true, if_false, if_true] at h
    cases hm : s.ctl.mode <;> simp_all [abandonReissue]
  · intro h
    obtain ⟨c, hc⟩ := e.latches_of_goesOn h
    rw [hc]
    exact ⟨rfl, rfl⟩

/-- Clearing owed on lanes of one word is all that `Marks.clearOwed` does to the store. -/
theorem OwedCleared.of_mark {st : Store} (h : st.wf) (w : Nat) (l : Lanes) : OwedCleared st (st.mark w (Marks.clearOwed l)) w l := by
  refine ⟨fun _ => rfl, fun j => ?_⟩
  rw [Store.marksAt_mark h]
  by_cases hj : w = j
  · simp [hj, Marks.clearOwed]
  · rw [if_neg hj, if_neg (Ne.symm hj)]

theorem clearOwedAt_of_imageWord {n : WinIdx} {a : Addr} {w : Nat} {s : State} (h : imageWord s.win .output n a = some w)
    (l : Lanes) : clearOwedAt n a l s = s.setImage (s.image.mark w (Marks.clearOwed l)) := by
  unfold clearOwedAt
  rw [h]

/-! ## The end of a discarded access -/

/-- The access that waited for a discarded one is passed anew: routed from IDLE to the mode then in force (R174, R15). -/
theorem passAnew_of_afterDiscard {s : State} {o : Outstanding} (h : s.cp = .outstanding o) (hw : o.wait = .afterDiscard) :
    passAnew s = reroute (s.setCtl { s.ctl with mode := .idle })
      (s.setCp (.outstanding { o with wait := .service .pass, effectTaken := false })) := by
  have hp : passAnew s = route false { o with wait := .service .pass, effectTaken := false } s := by
    unfold passAnew
    rw [h]
    simp only [hw, if_true]
  rw [hp, reroute_of_outstanding rfl]
  simp only [routedBy_iff]
  by_cases hm : s.ctl.mode = .idle
  · rw [if_neg]
    · have : treatmentOf s o.cls o.access = .pass := by
        unfold treatmentOf isEmptyWrite
        cases o.cls <;> simp [hm, markTreatment, inputTreatment, outputTreatment, acksEmpty]
      simp only [route, this]
      rfl
    · simp [hm]
  · rw [if_pos ⟨rfl, .inl (Ne.symm hm)⟩, route_setCp rfl]

/-- The end of an access that a RESET command has discarded: nobody takes its result, and the access that waited for it is passed anew
(R174). -/
theorem exec_accessEnd_discarded (e : AccessEnd) {s : State} {p : PortAccess} (hr : s.lines.resetHeld = false) (hm : s.mp = some p)
    (hd : p.owner = .discarded) : exec e.command s = .next (followLevel .stageLow (e.latches (passAnew (e.closes s)))) := by
  have ho : ∀ u, ownerEnd p e.good e.word u = passAnew u := fun u => by
    unfold ownerEnd
    rw [hd]
  have hg : ∀ u, goOn p.owner u = u := fun u => by
    rw [hd]
    rfl
  rw [exec_accessEnd e hr hm]
  simp only [ho, hg, ite_self]

end Sys2Proof.Machine
end

