-- ==== Sys2Proof/Laws/Engine.lean ====
section
/-! SUPPORT. Where the release engine's work comes to: windows handed to the fill, the flush of a record, and the reissue. -/

namespace Sys2Proof.Machine

/-! ## Handing over -/

/-- One window handed over. -/
theorem handOver_handedOver {n : WinIdx} {s : State} (h : isFilled s.win[n] = true) : HandedOver [n] s (handOver n s) := by
  rcases hf : s.fill with ⟨list, offset, active, phase⟩
  unfold handOver HandedOver
  rw [if_pos h]
  by_cases hh : list.head? = some n
  · refine ⟨?_, fun p m x hp ho hm => ?_, fun hp => ?_, ?_⟩
    · cases active <;> simp [hf, hh]
    · have : m = n := by simpa [hf, hh] using hm.symm
      subst this
      simp [hf, hh, hp, ho]
    · rcases hmp : s.mp with - | ⟨a, w, e, d, o⟩
      · simp [hf, hh]
      · have := hp _ n hmp
        cases o <;> simp_all
        exact fun e _ => hp _ _ rfl (by rw [e])
    · cases hmp : s.mp <;> simp [hf, hh]
  · refine ⟨?_, fun p m x hp ho hm => ?_, fun hp => ?_, ?_⟩
    · cases active <;> cases list <;> simp_all
    · have : m ≠ n := fun e => hh (by rw [← e]; simpa [hf] using hm)
      obtain ⟨a, w, e, d, o⟩ := p
      simp only at ho
      simp [hf, hh, hp, ho, this]
    · simp [hf, hh]
    · simp [hf, hh]

/-- Handing over goes on: a list, and then one window more. -/
theorem HandedOver.snoc {l : List WinIdx} {n : WinIdx} {s t u : State} (hst : HandedOver l s t) (htu : HandedOver [n] t u)
    (hn : n ∉ l) : HandedOver (l ++ [n]) s u := by
  obtain ⟨h1, h2, h3, h4⟩ := hst
  obtain ⟨k1, k2, k3, k4⟩ := htu
  have hact : t.fill.active = true := by rw [h1]; split <;> simp_all
  have hlist : t.fill.list = s.fill.list.filter (fun m => decide (m ∉ l)) ++ l := by rw [h1]; split <;> rfl
  have hhead : ∀ h, s.fill.list.head? = some h → h ∉ l → t.fill.list.head? = some h := by
    intro h hh hhl
    rw [hlist]
    cases hq : s.fill.list with
    | nil => simp [hq] at hh
    | cons a as =>
      have : a = h := by simpa [hq] using hh
      subst this
      simp [hhl]
  refine ⟨?_, fun p m x hp ho hm => ?_, fun hp => ?_, k4.trans h4⟩
  · rw [k1, if_pos hact, h1]
    have e : (s.fill.list.filter (fun m => decide (m ∉ l)) ++ l).filter (fun m => decide (m ∉ [n])) ++ [n] =
        s.fill.list.filter (fun m => decide (m ∉ l ++ [n])) ++ (l ++ [n]) := by
      have hl' : l.filter (fun m => decide (m ∉ [n])) = l :=
        List.filter_eq_self.2 fun a ha => by simpa using fun e : a = n => hn (e ▸ ha)
      rw [List.filter_append, hl', List.filter_filter, List.append_assoc]
      congr 1
      congr 1
      funext m
      simp [not_or, and_comm]
    cases hs : s.fill.active
    · simp only [hs, Bool.false_eq_true, if_false, e]
      simp
    · simp only [hs, if_true, e]
      congr 1
      cases hq : s.fill.list.head? with
      | none =>
        have hnil : s.fill.list = [] := by simpa using hq
        have : l.head? ≠ some n := fun h => hn (List.mem_of_mem_head? h)
        simp only [hnil, List.filter_nil, List.nil_append, Option.any_none, Bool.false_eq_true, if_false]
        cases hl2 : l.head? with
        | none => simp
        | some a =>
          have : a ≠ n := fun e => this (by rw [hl2, e])
          simp [this]
      | some h =>
        by_cases hm : h ∈ l
        · simp [hm]
        · have := hhead h hq hm
          rw [hlist] at this
          simp only [this]
          simp [hm]
  · have h2' := h2 p m x hp ho hm
    by_cases hml : m ∈ l
    · have hx : t.mp = some { p with owner := .fillWord m false } := by simpa [hml] using h2'
      rw [k3 fun q k hq => by rw [hx] at hq; cases hq; simp, hx]
      simp [hml]
    · have hx : t.mp = some { p with owner := .fillWord m x } := by simpa [hml] using h2'
      rw [k2 _ m x hx rfl (hhead m hm hml)]
      simp [hml]
  · have := h3 hp
    rw [k3 fun q k hq => hp q k (this ▸ hq), this]

/-- The windows of a list to be filled, handed over one after another. -/
theorem foldl_handOver_handedOver {s : State} (l : List WinIdx) (hl : l.Nodup) (hf : ∀ n ∈ l, isFilled s.win[n] = true)
    (hne : l ≠ []) : HandedOver l s (l.foldl (fun t n => handOver n t) s) := by
  induction l using List.reverseRecOn with
  | nil => exact absurd rfl hne
  | append_singleton l n ih =>
    rw [List.foldl_append, List.foldl_cons, List.foldl_nil]
    have hw : (l.foldl (fun t n => handOver n t) s).win = s.win := by simp
    have hn : isFilled (l.foldl (fun t n => handOver n t) s).win[n] = true := by
      rw [hw]; exact hf n (by simp)
    by_cases h : l = []
    · subst h
      exact handOver_handedOver hn
    · have hd := List.nodup_append.1 hl
      exact (ih hd.1 (fun m hm => hf m (by simp [hm])) h).snoc (handOver_handedOver hn)
        fun hm => hd.2.2 n hm n (by simp) rfl

/-- Handing over touches the fill and the owner of the access in flight alone. -/
theorem foldl_handOver_only (l : List WinIdx) : ∀ s : State, ∃ f m,
    l.foldl (fun t n => handOver n t) s = (s.setFill f).setMp m := by
  induction l with
  | nil => exact fun s => ⟨s.fill, s.mp, rfl⟩
  | cons n l ih =>
    intro s
    obtain ⟨f, m, h⟩ : ∃ f m, handOver n s = (s.setFill f).setMp m := by
      unfold handOver
      by_cases h : isFilled s.win[n] = true
      · rw [if_pos h]
        dsimp only
        by_cases h' : s.fill.list.head? = some n
        · simp only [h', if_true]
          exact ⟨_, _, rfl⟩
        · simp only [h', if_false]
          generalize (if s.fill.active = true then _ else _ : Fill) = f
          exact ⟨f, s.mp, rfl⟩
      · rw [if_neg h]
        exact ⟨s.fill, s.mp, rfl⟩
    obtain ⟨f', m', h'⟩ := ih (handOver n s)
    exact ⟨f', m', by rw [List.foldl_cons, h', h]; rfl⟩

/-- A window the fill writes nothing to is not handed over. -/
theorem foldl_handOver_filter {s : State} (l : List WinIdx) :
    l.foldl (fun t n => handOver n t) s = (l.filter fun n => isFilled s.win[n]).foldl (fun t n => handOver n t) s := by
  induction l generalizing s with
  | nil => rfl
  | cons n l ih =>
    rw [List.foldl_cons, ih]
    have hw : (handOver n s).win = s.win := by simp
    rw [hw, List.filter_cons]
    by_cases h : isFilled s.win[n] = true
    · rw [if_pos h, List.foldl_cons]
    · rw [if_neg h]
      have : handOver n s = s := by unfold handOver; rw [if_neg h]
      rw [this]

/-! ## The reissue -/

/-- A search of the places of a window from one on: the first with the property, or none has it. -/
theorem find?_drop_range {p : Nat → Bool} {len off : Nat} :
    (∀ k, ((List.range len).drop off).find? p = some k → off ≤ k ∧ k < len ∧ p k = true ∧ ∀ j, off ≤ j → j < k → p j = false) ∧
      (((List.range len).drop off).find? p = none → ∀ j, off ≤ j → j < len → p j = false) := by
  have hmem : ∀ j, j ∈ (List.range len).drop off ↔ off ≤ j ∧ j < len := by
    intro j
    rw [List.mem_iff_getElem]
    constructor
    · rintro ⟨i, hi, rfl⟩
      simp only [List.length_drop, List.length_range] at hi
      simp only [List.getElem_drop, List.getElem_range]
      omega
    · rintro ⟨h1, h2⟩
      refine ⟨j - off, ?_, ?_⟩
      · simp only [List.length_drop, List.length_range]
        omega
      · simp only [List.getElem_drop, List.getElem_range]
        omega
  constructor
  · intro k hk
    have hk' := (hmem k).1 (List.mem_of_find?_eq_some hk)
    refine ⟨hk'.1, hk'.2, List.find?_some hk, fun j h1 h2 => ?_⟩
    obtain ⟨-, as, bs, hl, hn⟩ := List.find?_eq_some_iff_append.1 hk
    have hj := (hmem j).2 ⟨h1, Nat.lt_trans h2 hk'.2⟩
    have hs : ((List.range len).drop off).Pairwise (· < ·) := List.pairwise_lt_range.sublist (List.drop_sublist _ _)
    rw [hl] at hj hs
    rw [List.pairwise_append, List.pairwise_cons] at hs
    rcases List.mem_append.1 hj with h | h
    · simpa using hn j h
    · rcases List.mem_cons.1 h with rfl | h
      · exact absurd h2 (Nat.lt_irrefl _)
      · exact absurd (hs.2.1.1 j h) (by omega)
  · intro hn j h1 h2
    simpa using List.find?_eq_none.1 hn j ((hmem j).2 ⟨h1, h2⟩)

/-- The places a reissue over these windows has to write, from a place of the first of them. -/
abbrev ToReissue (ws : Windows) (st : Store) (ns : List WinIdx) (off : Nat) (m : WinIdx) (k : Nat) : Prop :=
  m ∈ ns ∧ (ns.head? = some m → off ≤ k) ∧ (ws[m]).isOutput = true ∧ (ws[m]).freeze.cutOff = false ∧
    k < (ws[m]).record.length.toNat ∧ (st.marksAt ((ws[m]).record.imageBase.toNat + k)).valid ≠ 0

/-- The windows of the list that a reissue which has come to `pos` has passed as cut off, and that have this store word. -/
abbrev PassedCutOff (ws : Windows) (ns : List WinIdx) (pos : Option (WinIdx × Nat)) (w : Nat) : Prop :=
  ∃ m ∈ ns, (∀ n k, pos = some (n, k) → m < n) ∧ (ws[m]).isOutput = true ∧ (ws[m]).freeze.cutOff = true ∧
    (ws[m]).record.inImage w = true

/-- Where the reissue goes over a list of windows in ascending index: the first word to write, and the marks of the cut-off windows it has
passed (R146, R147). -/
theorem seekReissue_spec {ws : Windows} : ∀ (ns : List WinIdx) (off : Nat) (st : Store), ns.Pairwise (· < ·) → st.wf →
    let r := seekReissue ws ns off st
    (∀ a, r.1.byte a = st.byte a) ∧
      (∀ m k, r.2 = some (m, k) → FirstPlace (ToReissue ws st ns off) m k) ∧
      (r.2 = none → ∀ m k, ¬ToReissue ws st ns off m k) ∧
      ∀ w : Nat, (PassedCutOff ws ns r.2 w → r.1.marksAt w = { st.marksAt w with owed := (st.marksAt w).valid }) ∧
        (¬PassedCutOff ws ns r.2 w → r.1.marksAt w = st.marksAt w) := by
  intro ns
  induction ns with
  | nil => intro off st _ _; simp [seekReissue]
  | cons n ns ih =>
    intro off st hs hw
    obtain ⟨hlt, hs'⟩ := List.pairwise_cons.1 hs
    -- the window at the head has nothing to write: the rest of the list decides
    have rest : ∀ st' : Store, (∀ k, ¬ToReissue ws st (n :: ns) off n k) → (∀ w, (st'.marksAt w).valid = (st.marksAt w).valid) →
        ∀ m k, ToReissue ws st (n :: ns) off m k ↔ ToReissue ws st' ns 0 m k := by
      intro st' hn hv m k
      constructor
      · intro h
        have hmn : m ≠ n := fun e => hn k (e ▸ h)
        exact ⟨(List.mem_cons.1 h.1).resolve_left hmn, fun _ => Nat.zero_le _, h.2.2.1, h.2.2.2.1, h.2.2.2.2.1, hv _ ▸ h.2.2.2.2.2⟩
      · intro h
        have hmn : n ≠ m := ne_of_lt (hlt m h.1)
        refine ⟨List.mem_cons_of_mem _ h.1, fun e => absurd (by simpa using e) hmn, h.2.2.1, h.2.2.2.1, h.2.2.2.2.1, ?_⟩
        rw [← hv]
        exact h.2.2.2.2.2
    have passed : ∀ pos w, ¬((ws[n]).isOutput = true ∧ (ws[n]).freeze.cutOff = true) →
        (PassedCutOff ws (n :: ns) pos w ↔ PassedCutOff ws ns pos w) := by
      intro pos w hn
      constructor
      · rintro ⟨m, hm, h1, h2, h3, h4⟩
        exact ⟨m, (List.mem_cons.1 hm).resolve_left fun e => hn (e ▸ ⟨h2, h3⟩), h1, h2, h3, h4⟩
      · rintro ⟨m, hm, h⟩
        exact ⟨m, List.mem_cons_of_mem _ hm, h⟩
    dsimp only
    unfold seekReissue
    by_cases ho : (ws[n]).isOutput = true
    · simp only [ho, Bool.not_true, Bool.false_eq_true, if_false]
      by_cases hc : (ws[n]).freeze.cutOff = true
      · simp only [hc, if_true]
        have hwo := Store.wf_oweValid hw (ws[n]).record.inImage
        obtain ⟨i1, i2, i3, i4⟩ := ih 0 _ hs' hwo
        have hv : ∀ w, ((st.oweValid (ws[n]).record.inImage).marksAt w).valid = (st.marksAt w).valid := by
          intro w
          rw [Store.marksAt_oweValid hw]
          split <;> rfl
        have hr := rest _ (fun k h => absurd (hc.symm.trans h.2.2.2.1) (by decide)) hv
        refine ⟨fun a => (i1 a).trans rfl, fun m k h => ?_, fun h m k => (hr m k).not.2 (i3 h m k), fun w => ?_⟩
        · have := i2 m k h
          exact ⟨(hr m k).2 this.1, fun m' k' h' => this.2 m' k' ((hr m' k').1 h')⟩
        · have hpos : ∀ a b, (seekReissue ws ns 0 (st.oweValid (ws[n]).record.inImage)).2 = some (a, b) → n < a :=
            fun a b h => hlt a (i2 a b h).1.1
          have hcons : PassedCutOff ws (n :: ns) (seekReissue ws ns 0 (st.oweValid (ws[n]).record.inImage)).2 w ↔
              (ws[n]).record.inImage w = true ∨ PassedCutOff ws ns (seekReissue ws ns 0 (st.oweValid (ws[n]).record.inImage)).2 w := by
            constructor
            · rintro ⟨m, hm, h⟩
              rcases List.mem_cons.1 hm with rfl | hm
              · exact .inl h.2.2.2
              · exact .inr ⟨m, hm, h⟩
            · rintro (h | ⟨m, hm, h⟩)
              · exact ⟨n, List.mem_cons_self, hpos, ho, hc, h⟩
              · exact ⟨m, List.mem_cons_of_mem _ hm, h⟩
          rw [hcons]
          have h4 := i4 w
          rw [Store.marksAt_oweValid hw] at h4
          by_cases hi : (ws[n]).record.inImage w = true
          · rw [if_pos hi] at h4
            refine ⟨fun _ => ?_, fun h => absurd (.inl hi) h⟩
            by_cases hp : PassedCutOff ws ns (seekReissue ws ns 0 (st.oweValid (ws[n]).record.inImage)).2 w
            · rw [h4.1 hp]
            · rw [h4.2 hp]
          · rw [if_neg hi] at h4
            exact ⟨fun h => h4.1 (h.resolve_left hi), fun h => h4.2 fun k => h (.inr k)⟩
      · simp only [hc, Bool.false_eq_true, if_false]
        have hc' : (ws[n]).freeze.cutOff = false := by simpa using hc
        obtain ⟨f1, f2⟩ := @find?_drop_range (fun k => decide ((st.marksAt ((ws[n]).imageAt k)).valid ≠ 0)) (ws[n]).words off
        cases hf : findValid ws st n off with
        | some k =>
          obtain ⟨g1, g2, g3, g4⟩ := f1 k hf
          refine ⟨fun _ => rfl, ?_, fun h => by simp at h, fun w => ⟨?_, fun _ => rfl⟩⟩
          · intro m j h
            obtain ⟨rfl, rfl⟩ : n = m ∧ k = j := by simpa using h
            refine ⟨⟨List.mem_cons_self, fun _ => g1, ho, hc', g2, of_decide_eq_true g3⟩, fun m' k' h' => ?_⟩
            rcases List.mem_cons.1 h'.1 with rfl | hm
            · refine .inr ⟨rfl, Nat.le_of_not_lt fun hlt' => ?_⟩
              have := g4 k' (h'.2.1 rfl) hlt'
              exact of_decide_eq_false this h'.2.2.2.2.2
            · exact .inl (hlt m' hm)
          · rintro ⟨m, hm, h, -⟩
            have := h n k rfl
            rcases List.mem_cons.1 hm with rfl | hm
            · exact absurd this (lt_irrefl _)
            · exact absurd (hlt m hm) (lt_asymm this)
        | none =>
          obtain ⟨i1, i2, i3, i4⟩ := ih 0 st hs' hw
          have hr := rest st (fun k h => of_decide_eq_false (f2 hf k (h.2.1 rfl) h.2.2.2.2.1) h.2.2.2.2.2) (fun _ => rfl)
          refine ⟨i1, fun m k h => ?_, fun h m k => (hr m k).not.2 (i3 h m k), fun w => ?_⟩
          · have := i2 m k h
            exact ⟨(hr m k).2 this.1, fun m' k' h' => this.2 m' k' ((hr m' k').1 h')⟩
          · rw [passed _ w (fun h => hc h.2)]
            exact i4 w
    · have ho' : (ws[n]).isOutput = false := by simpa using ho
      simp only [ho', Bool.not_false, if_true]
      obtain ⟨i1, i2, i3, i4⟩ := ih 0 st hs' hw
      have hr := rest st (fun k h => ho h.2.2.1) (fun _ => rfl)
      refine ⟨i1, fun m k h => ?_, fun h m k => (hr m k).not.2 (i3 h m k), fun w => ?_⟩
      · have := i2 m k h
        exact ⟨(hr m k).2 this.1, fun m' k' h' => this.2 m' k' ((hr m' k').1 h')⟩
      · rw [passed _ w (fun h => ho h.1)]
        exact i4 w

/-- Where the reissue comes to from a place (R146 to R148). -/
theorem reissueFrom_comesTo {s : State} (hw : s.image.wf) (n : WinIdx) (off : Nat) : ReissueComesTo s n off (reissueFrom n off s) := by
  have hs : (allWin.filter fun m => decide (n ≤ m)).Pairwise (· < ·) := (by decide : allWin.Pairwise (· < ·)).filter _
  have hmem : ∀ m, m ∈ (allWin.filter fun m => decide (n ≤ m)) ↔ n ≤ m := fun m => by simp [mem_allWin]
  have hhead : (allWin.filter fun m => decide (n ≤ m)).head? = some n := by
    revert n; decide
  obtain ⟨h1, h2, h3, h4⟩ := seekReissue_spec _ off s.image hs hw (ws := s.win)
  have hout : ∀ m : WinIdx, (s.win[m]).isOutput = true ↔ (s.win[m]).defined = true ∧ (s.win[m]).record.kind = .output :=
    fun m => by simp [Window.isOutput]
  have hcut : ∀ m : WinIdx, (s.win[m]).freeze.cutOff = true ↔ (s.win[m]).freeze = .frozen ∨ (s.win[m]).freeze = .thawPending :=
    fun m => by cases (s.win[m]).freeze <;> simp [Freeze.cutOff]
  have hto : ∀ m k, ToReissue s.win s.image (allWin.filter fun m => decide (n ≤ m)) off m k ↔
      ((s.win[m]).defined = true ∧ (s.win[m]).record.kind = .output) ∧
        ¬((s.win[m]).freeze = .frozen ∨ (s.win[m]).freeze = .thawPending) ∧ NotBefore n off m k ∧
        k < (s.win[m]).record.length.toNat ∧ (s.image.marksAt ((s.win[m]).record.imageBase.toNat + k)).valid ≠ 0 := by
    intro m k
    rw [← hout, ← hcut, Bool.not_eq_true]
    simp only [ToReissue, hmem, hhead, Option.some.injEq, NotBefore]
    constructor
    · rintro ⟨a, b, c, d, e, f⟩
      refine ⟨c, d, ?_, e, f⟩
      rcases lt_or_eq_of_le a with h | h
      · exact .inl h
      · exact .inr ⟨h, b h⟩
    · rintro ⟨c, d, a | ⟨a, b⟩, e, f⟩
      · exact ⟨le_of_lt a, fun h => absurd a (h ▸ lt_irrefl _), c, d, e, f⟩
      · exact ⟨le_of_eq a, fun _ => b, c, d, e, f⟩
  have hpass : ∀ pos w, PassedCutOff s.win (allWin.filter fun m => decide (n ≤ m)) pos w ↔
      ∃ m, n ≤ m ∧ (∀ a b, pos = some (a, b) → m < a) ∧ ((s.win[m]).defined = true ∧ (s.win[m]).record.kind = .output) ∧
        ((s.win[m]).freeze = .frozen ∨ (s.win[m]).freeze = .thawPending) ∧ (s.win[m]).record.inImage w = true := by
    intro pos w
    simp only [PassedCutOff, hmem, hout, hcut]
  unfold reissueFrom
  rcases hr : seekReissue s.win (allWin.filter fun m => decide (n ≤ m)) off s.image with ⟨st, pos⟩
  rw [hr] at h1 h2 h3 h4
  rcases pos with - | ⟨a, b⟩
  · refine ⟨rfl, h1, fun m k h => ?_, fun _ => ⟨rfl, fun w => ?_⟩⟩
    · exact absurd ((hto m k).2 h.1) (h3 rfl m k)
    · have := h4 w
      rw [hpass] at this
      simpa using this
  · have hfirst := h2 a b rfl
    refine ⟨rfl, h1, fun m k h => ?_, fun h => absurd ((hto a b).1 hfirst.1) (h a b)⟩
    have e1 := h.2 a b ((hto a b).1 hfirst.1)
    have e2 := hfirst.2 m k ((hto m k).2 h.1)
    have heq : m = a ∧ k = b := by
      simp only [NotBefore, Fin.lt_def, Fin.ext_iff] at e1 e2 ⊢
      omega
    obtain ⟨rfl, rfl⟩ := heq
    refine ⟨rfl, fun w => ?_⟩
    have := h4 w
    rw [hpass] at this
    simpa using this

/-! ## The flush -/

/-- Whether the word at a place of a window owes a lane. -/
abbrev OwedAt (ws : Windows) (st : Store) (n : WinIdx) (k : Nat) : Prop :=
  (st.marksAt ((ws[n]).record.imageBase.toNat + k)).owed ≠ 0

/-- The `i`-th window of a flush set, the first of which is taken from place `off`, has no owed word left. -/
abbrev FlushedOut (ws : Windows) (st : Store) (set : List WinIdx) (off i : Nat) : Prop :=
  ∀ n k, set[i]? = some n → (if i = 0 then off else 0) ≤ k → k < (ws[n]).record.length.toNat → ¬OwedAt ws st n k

/-- Where the flush goes: to the first owed word of the first window that has one left, those before it leaving the set; past the last window
with nothing left (R92). -/
theorem seekFlush_spec {ws : Windows} {st : Store} : ∀ (set : List WinIdx) (off : Nat),
    (∀ i n k, set[i]? = some n → (∀ j, j < i → FlushedOut ws st set off j) → (if i = 0 then off else 0) ≤ k →
      k < (ws[n]).record.length.toNat → OwedAt ws st n k →
      (∀ j, (if i = 0 then off else 0) ≤ j → j < k → ¬OwedAt ws st n j) → seekFlush ws st set off = (set.drop i, some (n, k))) ∧
    ((∀ i, FlushedOut ws st set off i) → seekFlush ws st set off = ([], none)) := by
  intro set
  induction set with
  | nil => exact fun off => ⟨fun i n k h => by simp at h, fun _ => rfl⟩
  | cons m ms ih =>
    intro off
    obtain ⟨f1, f2⟩ := @find?_drop_range (fun k => decide ((st.marksAt ((ws[m]).imageAt k)).owed ≠ 0)) (ws[m]).words off
    -- a head with nothing left: the rest of the set decides
    have hnone : FlushedOut ws st (m :: ms) off 0 → seekFlush ws st (m :: ms) off = seekFlush ws st ms 0 := by
      intro h
      have : findOwed ws st m off = none := by
        cases hf : findOwed ws st m off with
        | none => rfl
        | some k =>
          obtain ⟨g1, g2, g3, -⟩ := f1 k hf
          exact absurd (of_decide_eq_true g3) (h m k rfl g1 g2)
      rw [seekFlush, this]
    have hshift : ∀ j, FlushedOut ws st (m :: ms) off (j + 1) ↔ FlushedOut ws st ms 0 j := by
      intro j
      simp only [FlushedOut, List.getElem?_cons_succ, Nat.succ_ne_zero, if_false, ite_self]
    constructor
    · intro i n k hi hj h1 h2 h3 h4
      cases i with
      | zero =>
        obtain rfl : m = n := by simpa using hi
        rw [if_pos rfl] at h1 h4
        have : findOwed ws st m off = some k := by
          cases hf : findOwed ws st m off with
          | none => exact absurd h3 (of_decide_eq_false (f2 hf k h1 h2))
          | some k' =>
            obtain ⟨g1, g2, g3, g4⟩ := f1 k' hf
            rcases Nat.lt_trichotomy k k' with h | h | h
            · exact absurd h3 (of_decide_eq_false (g4 k h1 h))
            · rw [h]
            · exact absurd (of_decide_eq_true g3) (h4 k' g1 h)
        rw [seekFlush, this]
        rfl
      | succ i =>
        rw [hnone (hj 0 (Nat.succ_pos i)), List.drop_succ_cons]
        refine (ih 0).1 i n k (by simpa using hi) (fun j hlt => (hshift j).1 (hj (j + 1) (Nat.succ_lt_succ hlt))) ?_ h2 h3 ?_
        · rw [ite_self]
          exact Nat.zero_le k
        · rw [if_neg (Nat.succ_ne_zero i)] at h4
          rw [ite_self]
          exact h4
    · intro h
      rw [hnone (h 0)]
      exact (ih 0).2 fun j => (hshift j).1 (h (j + 1))

/-! ## THAW -/

/-- THAW applied to FROZEN windows, with the routing anew that follows it (R118). -/
theorem thawAll_gives {s : State} {l : List WinIdx} (hm : s.ctl.mode = .armed ∨ s.ctl.mode = .run ∨ s.ctl.mode = .safe)
    (hl : l.Pairwise (· < ·)) (hf : ∀ n ∈ l, (s.win[n]).freeze = .frozen) : ∃ t, ThawGives l s t ∧ thawAll l s = reroute s t := by
  refine ⟨_, ?_, rfl⟩
  have hthaw : thawTo s.ctl.mode .frozen = if s.ctl.mode = .run then .thawPending else .opened := by
    rcases hm with h | h | h <;> rw [h] <;> rfl
  set ws := mapWin (fun n w => if n ∈ l then { w with freeze := thawTo s.ctl.mode w.freeze } else w) s.win with hws
  have hwin : ∀ n : WinIdx, ws[n] =
      if n ∈ l then { s.win[n] with freeze := if s.ctl.mode = .run then .thawPending else .opened } else s.win[n] := by
    intro n
    rw [hws, mapWin_get]
    by_cases h : n ∈ l
    · rw [if_pos h, if_pos h, hf n h, hthaw]
    · rw [if_neg h, if_neg h]
  have hrec : ∀ n : WinIdx, isFilled ws[n] = ((s.win[n]).defined && decide ((s.win[n]).record.kind = .output) &&
      decide ((s.win[n]).record.policy ≠ .hold)) := by
    intro n
    rw [hwin]
    split <;> rfl
  have ht := TimerFollows.of_follow s.freeze s.win ws
  have hff : (s.freeze.follow s.win ws).firstFlush = s.freeze.firstFlush := by
    unfold FreezeControl.follow
    split <;> rfl
  rcases hm with h | h | h
  · rw [h] at hwin
    simp only [h]
    refine ⟨fun n => (hwin n).trans (by rw [h]), ?_, ht, fun hc => absurd (h.symm.trans hc) (by decide), fun _ => ⟨rfl, rfl⟩, rfl⟩
    rw [if_pos h, ← hff]
    rfl
  · rw [h] at hwin
    simp only [h]
    refine ⟨fun n => (hwin n).trans (by rw [h]), ?_, ht, fun hc => absurd (h.symm.trans hc) (by decide), fun _ => ⟨rfl, rfl⟩, rfl⟩
    rw [if_neg (by rw [h]; decide)]
    exact hff
  · simp only [h]
    have hfil : l.filter (fun n => isFilled (setWindows ws s).win[n]) = l.filter fun n => (s.win[n]).defined &&
        decide ((s.win[n]).record.kind = .output) && decide ((s.win[n]).record.policy ≠ .hold) :=
      List.filter_congr fun n _ => hrec n
    rw [foldl_handOver_filter, hfil]
    generalize hL : (l.filter fun n => (s.win[n]).defined && decide ((s.win[n]).record.kind = .output) &&
      decide ((s.win[n]).record.policy ≠ .hold)) = filled at *
    have hkeep : (filled.foldl (fun t n => handOver n t) (setWindows ws s)).win = ws ∧
        (filled.foldl (fun t n => handOver n t) (setWindows ws s)).freeze = s.freeze.follow s.win ws := by
      constructor <;> simp [setWindows]
    refine ⟨fun n => ?_, ?_, ?_, fun _ hne => ?_, fun hor => ?_, ?_⟩
    · rw [hkeep.1]; exact hwin n
    · rw [hkeep.2, hff, if_neg (by rw [h]; decide)]
    · rw [hkeep.2, hkeep.1]; exact ht
    · have := foldl_handOver_handedOver (s := setWindows ws s) filled ?_ ?_ ?_
      · rw [hL]
        exact this
      · rw [← hL]
        exact (hl.imp fun h => ne_of_lt h).filter _
      · intro n hn
        rw [← hfil] at hn
        exact (List.mem_filter.1 hn).2
      · exact hL ▸ hne
    · have hnil : filled = [] := hL ▸ hor.resolve_left fun hn => hn h
      rw [hnil]
      exact ⟨rfl, rfl⟩
    · obtain ⟨f, m, hfm⟩ := foldl_handOver_only filled (setWindows ws s)
      rw [hfm]
      rfl

end Sys2Proof.Machine
end

