-- ==== Sys2Proof/Laws/Layouts.lean ====
section
/-! SUPPORT. The bits of a value built from fields: which position of the value a field or a flag supplies. -/

namespace Sys2Proof.Machine

theorem getLsbD_fieldAt {n : Nat} (x : BitVec n) (k : Nat) {i : Nat} (hi : i < 32) :
    (fieldAt x k).getLsbD i = (decide (k ≤ i) && x.getLsbD (i - k)) := by
  simp only [fieldAt, BitVec.getLsbD_shiftLeft, hi, BitVec.getLsbD_setWidth]
  by_cases h : i < k
  · simp [h, Nat.not_le.2 h]
  · simp [h, Nat.not_lt.1 h, Nat.lt_of_le_of_lt (Nat.sub_le i k) hi]

theorem getElem_fieldAt {n : Nat} (x : BitVec n) (k : Nat) {i : Nat} (hi : i < 32) :
    (fieldAt x k)[i] = (decide (k ≤ i) && x.getLsbD (i - k)) := by
  rw [← BitVec.getLsbD_eq_getElem, getLsbD_fieldAt x k hi]

theorem bitAt_eq_fieldAt (b : Bool) (k : Nat) : bitAt b k = fieldAt (BitVec.ofBool b) k := by
  cases b <;> simp [bitAt, fieldAt]

theorem getLsbD_bitAt (b : Bool) (k : Nat) {i : Nat} (hi : i < 32) :
    (bitAt b k).getLsbD i = (b && decide (i = k)) := by
  rw [bitAt_eq_fieldAt, getLsbD_fieldAt _ _ hi]
  rcases Nat.lt_trichotomy i k with h | h | h
  · simp [Nat.not_le.2 h, Nat.ne_of_lt h]
  · subst h; cases b <;> simp
  · have : i - k ≠ 0 := by omega
    cases b <;> simp [BitVec.ofBool, Nat.ne_of_gt h, this]

theorem getElem_bitAt (b : Bool) (k : Nat) {i : Nat} (hi : i < 32) : (bitAt b k)[i] = (b && decide (i = k)) := by
  rw [← BitVec.getLsbD_eq_getElem, getLsbD_bitAt b k hi]

/-- A field at the bottom of a value is the value. -/
theorem toNat_fieldAt_zero {n : Nat} (x : BitVec n) (h : n ≤ 32) : (fieldAt x 0).toNat = x.toNat := by
  simp only [fieldAt, BitVec.shiftLeft_zero, BitVec.toNat_setWidth]
  exact Nat.mod_eq_of_lt (Nat.lt_of_lt_of_le x.isLt (Nat.pow_le_pow_right (by decide) h))

end Sys2Proof.Machine
end

