-- ==== Sys2Proof/Laws/Link.lean ====
section
/-! SUPPORT. What becomes of a request by whether a frame can be addressed to the bridge and whether a command is in flight. -/

namespace Sys2Proof.Machine

theorem addressed_iff (s : State) : addressed s = true ↔ Listening s := by
  simp only [addressed, receiving, Listening, Bool.and_eq_true, Bool.not_eq_true', decide_eq_true_eq]
  exact ⟨fun h => ⟨h.1.1, h.2, h.1.2⟩, fun h => ⟨⟨h.1, h.2.2⟩, h.2.1⟩⟩

theorem request_of_listening {s : State} (h : Listening s) (f : State → State) : request f s = f s := by
  simp [request, (addressed_iff s).2 h]

theorem request_of_not_listening {s : State} (h : ¬Listening s) (f : State → State) : request f s = s := by
  simp [request, mt (addressed_iff s).1 h]

theorem guarded_of_attending {s : State} (h : Attending s) (f : State → State) : guarded f s = f s := by
  simp [guarded, request_of_listening h.1, unlessBusy, h.2]

/-- A request that finds a command in flight is BUSY and sets COLLISION, and its rule is not reached. -/
theorem guarded_in_flight {s : State} (h : Listening s) (hc : s.mg.command ≠ none) (f : State → State) :
    guarded f s = s.setMg ({ s.mg with collision := true }.replied .busy 0) := by
  simp only [guarded, request_of_listening h, unlessBusy, Option.isSome_iff_ne_none.2 hc, if_true]
  rfl

theorem guarded_of_not_listening {s : State} (h : ¬Listening s) (f : State → State) : guarded f s = s := by
  simp [guarded, request_of_not_listening h]

end Sys2Proof.Machine
end

