-- ==== Sys2Proof/Laws/Sampling.lean ====
section
/-! SUPPORT. Where the walk goes: the words of a walk in their order, and the first of them that is not FRESH. -/

namespace Sys2Proof.Machine

/-- The order in which the walk considers two places (R76). -/
abbrev PlaceBefore (a b : WinIdx × Nat) : Prop := a.1 < b.1 ∨ a.1 = b.1 ∧ a.2 < b.2

theorem mem_windowWords {ws : Windows} {n m : WinIdx} {k : Nat} :
    (m, k) ∈ windowWords ws n ↔ m = n ∧ k < (ws[n]).record.length.toNat := by
  simp only [windowWords, Window.words, List.mem_map, List.mem_range, Prod.mk.injEq]
  constructor
  · rintro ⟨j, h, rfl, rfl⟩; exact ⟨rfl, h⟩
  · rintro ⟨rfl, h⟩; exact ⟨k, h, rfl, rfl⟩

theorem mem_walkWords {ws : Windows} {set : List WinIdx} {m : WinIdx} {k : Nat} :
    (m, k) ∈ walkWords ws set ↔ m ∈ set ∧ k < (ws[m]).record.length.toNat := by
  simp only [walkWords, List.mem_flatMap, mem_windowWords]
  constructor
  · rintro ⟨n, hn, rfl, hk⟩; exact ⟨hn, hk⟩
  · rintro ⟨hm, hk⟩; exact ⟨m, hm, rfl, hk⟩

theorem windowWords_sorted (ws : Windows) (n : WinIdx) : (windowWords ws n).Pairwise PlaceBefore := by
  unfold windowWords
  rw [List.pairwise_map]
  exact List.pairwise_lt_range.imp fun h => .inr ⟨rfl, h⟩

theorem walkWords_sorted {ws : Windows} {set : List WinIdx} (h : set.Pairwise (· < ·)) :
    (walkWords ws set).Pairwise PlaceBefore := by
  unfold walkWords
  rw [List.pairwise_flatMap]
  refine ⟨fun n _ => windowWords_sorted ws n, h.imp fun hab x hx y hy => ?_⟩
  have h1 := (mem_windowWords.1 hx).1
  have h2 := (mem_windowWords.1 hy).1
  exact .inl (h1 ▸ h2 ▸ hab)

/-- The words after a place, in their order: the rest of its window, then the windows of the set that follow. -/
theorem mem_wordsAfter {ws : Windows} {set : List WinIdx} {n m : WinIdx} {off k : Nat} (hn : n ∈ set) :
    (m, k) ∈ wordsAfter ws set (n, off) ↔ m ∈ set ∧ k < (ws[m]).record.length.toNat ∧ NotBefore n (off + 1) m k := by
  have hdrop : (m, k) ∈ (windowWords ws n).drop (off + 1) ↔ m = n ∧ k < (ws[n]).record.length.toNat ∧ off + 1 ≤ k := by
    simp only [windowWords, Window.words, ← List.map_drop, List.mem_map, Prod.mk.injEq]
    constructor
    · rintro ⟨j, hj, rfl, rfl⟩
      obtain ⟨i, hi, rfl⟩ := List.mem_iff_getElem.1 hj
      simp only [List.length_drop, List.length_range] at hi
      simp only [List.getElem_drop, List.getElem_range]
      exact ⟨trivial, by omega, by omega⟩
    · rintro ⟨rfl, hk, hle⟩
      refine ⟨k, List.mem_iff_getElem.2 ⟨k - (off + 1), ?_, ?_⟩, rfl, rfl⟩
      · simp only [List.length_drop, List.length_range]
        omega
      · simp only [List.getElem_drop, List.getElem_range]
        omega
  simp only [wordsAfter, List.mem_append, hdrop, mem_walkWords, List.mem_filter, decide_eq_true_eq, NotBefore]
  constructor
  · rintro (⟨rfl, hk, hle⟩ | ⟨⟨hm, hlt⟩, hk⟩)
    · exact ⟨hn, hk, .inr ⟨rfl, hle⟩⟩
    · exact ⟨hm, hk, .inl hlt⟩
  · rintro ⟨hm, hk, hlt | ⟨rfl, hle⟩⟩
    · exact .inr ⟨⟨hm, hlt⟩, hk⟩
    · exact .inl ⟨rfl, hk, hle⟩

theorem wordsAfter_sorted {ws : Windows} {set : List WinIdx} (h : set.Pairwise (· < ·)) (p : WinIdx × Nat) :
    (wordsAfter ws set p).Pairwise PlaceBefore := by
  unfold wordsAfter
  rw [List.pairwise_append]
  refine ⟨(windowWords_sorted ws p.1).sublist (List.drop_sublist _ _), walkWords_sorted (h.filter _), fun x hx y hy => ?_⟩
  have h1 := (mem_windowWords.1 (List.mem_of_mem_drop hx)).1
  have h2 := (List.mem_filter.1 (mem_walkWords.1 hy).1).2
  exact .inl (h1 ▸ of_decide_eq_true h2)

/-- The first member of a list in order that satisfies a test comes before every other that does. -/
theorem notBefore_of_find? {l : List (WinIdx × Nat)} (hl : l.Pairwise PlaceBefore) {p : WinIdx × Nat → Bool} {a b : WinIdx × Nat}
    (ha : l.find? p = some a) (hb : b ∈ l) (hp : p b = true) : NotBefore a.1 a.2 b.1 b.2 := by
  obtain ⟨-, as, bs, rfl, hn⟩ := List.find?_eq_some_iff_append.1 ha
  rw [List.pairwise_append, List.pairwise_cons] at hl
  rcases List.mem_append.1 hb with h | h
  · have := hn b h
    simp [hp] at this
  · rcases List.mem_cons.1 h with rfl | h
    · exact .inr ⟨rfl, le_refl _⟩
    · rcases hl.2.1.1 b h with h' | ⟨h', h''⟩
      · exact .inl h'
      · exact .inr ⟨h', Nat.le_of_lt h''⟩

/-- The walk goes to the first word not FRESH of those ahead of it (R76, R78). -/
theorem Sampler.goTo_comesTo {w : Sampler} {ws : Windows} {st : Store} {l : List (WinIdx × Nat)} {ahead : WinIdx → Nat → Prop}
    (hw : w.state = .walking) (hl : l.Pairwise PlaceBefore)
    (hm : ∀ m k, (m, k) ∈ l ↔ m ∈ w.walkSet ∧ k < (ws[m]).record.length.toNat ∧ ahead m k) :
    WalkComesTo ws st ahead w (w.goTo ws st l) := by
  have hfresh : ∀ m k, (!isFresh ws st (m, k)) = true ↔ (st.marksAt ((ws[m]).record.imageBase.toNat + k)).fresh = false :=
    fun m k => by simp [isFresh, Window.imageAt]
  unfold Sampler.goTo
  constructor
  · rintro n off ⟨⟨h1, h2, h3, h4⟩, hleast⟩
    have hin := (hm n off).2 ⟨h1, h2, h3⟩
    cases hf : l.find? fun p => !isFresh ws st p with
    | none => exact absurd ((hfresh n off).2 h4) (by simpa using List.find?_eq_none.1 hf _ hin)
    | some p =>
      obtain ⟨m, k⟩ := p
      have hmem := List.mem_of_find?_eq_some hf
      have hp : (!isFresh ws st (m, k)) = true := List.find?_some (p := fun p => !isFresh ws st p) hf
      have hto := (hm m k).1 hmem
      have ha := hleast m k ⟨hto.1, hto.2.1, hto.2.2, (hfresh m k).1 hp⟩
      have hb := notBefore_of_find? hl hf hin ((hfresh n off).2 h4)
      have heq : m = n ∧ k = off := by
        simp only [NotBefore, Fin.lt_def, Fin.ext_iff] at ha hb ⊢
        omega
      simp only [heq.1, heq.2, hw]
  · intro hnone
    cases hf : l.find? fun p => !isFresh ws st p with
    | none => rfl
    | some p =>
      obtain ⟨m, k⟩ := p
      have hto := (hm m k).1 (List.mem_of_find?_eq_some hf)
      exact absurd ⟨hto.1, hto.2.1, hto.2.2, (hfresh m k).1 (List.find?_some (p := fun p => !isFresh ws st p) hf)⟩ (hnone m k)

theorem walkSetAt_sorted (ws : Windows) : (walkSetAt ws).Pairwise (· < ·) := (by decide : allWin.Pairwise (· < ·)).filter _

/-- Where a walk that begins over the windows of a table comes to. -/
theorem walkBegin_comesTo {atMark : Windows} {s : State} :
    WalkComesTo s.win (walkBegin atMark s).image (fun _ _ => True) ⟨.walking, none, walkSetAt atMark, false⟩
      (walkBegin atMark s).sampler := by
  refine Sampler.goTo_comesTo rfl (walkWords_sorted (walkSetAt_sorted atMark)) fun m k => ?_
  rw [mem_walkWords]
  simp

/-- Where the walk comes to when it leaves its word. -/
theorem walkOn_comesTo {s : State} (h : OrderInv s) {n : WinIdx} {off : Nat} (hp : s.sampler.position = some (n, off)) :
    walkOn s = s.setSampler (walkOn s).sampler ∧
      WalkComesTo s.win s.image (NotBefore n (off + 1)) s.sampler (walkOn s).sampler := by
  obtain ⟨hs, hpos, -⟩ := h
  obtain ⟨hw, hn⟩ := hpos _ hp
  have he : walkOn s = s.setSampler (s.sampler.goTo s.win s.image (wordsAfter s.win s.sampler.walkSet (n, off))) := by
    unfold walkOn
    rw [hw, hp]
  rw [he]
  exact ⟨rfl, Sampler.goTo_comesTo hw (wordsAfter_sorted hs _) fun m k => mem_wordsAfter hn⟩

end Sys2Proof.Machine
end

