-- ==== Sys2Proof/WellFormed.lean ====
section
/-! DEFINITION. Well-formed commands: those whose operands a sender that follows the manual can present. The machine gives every
command a meaning, well-formed or not; this check tells a sender's slip. -/

namespace Sys2Proof

/-- Whether the operands are ones the event can have. -/
def Instr.wellFormed : Instr → Bool
  | .memoryPortAccessEnd lines _ => lines.ack || lines.fail
  | .frameError bytes => bytes.inError
  | .qualifyingTimerAdvance _ periods => decide (0 < periods)
  | .writeItem number _ => (Machine.Item.ofNumber number).isSome
  | _ => true

end Sys2Proof
end

