-- ==== Sys2Proof/Tests/Slice0.lean ====
section
/-! SUPPORT. The model's own tests: ill-formed commands that the check refuses, one step of each command on a small state, and for every
statement with hypotheses a state and operands that meet them. -/

namespace Sys2Proof.Machine.Tests

/-! ## Small states -/

/-- The state a command answers. -/
def after (c : Instr) (s : State) : State :=
  match exec c s with
  | .next t => t
  | _ => s

/-- The bridge after power-on, in a mode. -/
def inMode (m : Mode) (s : State := State.reset) : State := s.setCtl { s.ctl with mode := m }

/-- Window `n` is defined over four words from 100H times n plus 100H, image slice from 4 times n, with a kind, a policy and a freeze
state. -/
def withWin (n : WinIdx) (k : Kind) (p : Policy) (f : Freeze) (s : State) : State :=
  let r : Fields := ⟨BitVec.ofNat 22 (0x100 * n.val + 0x100), k, p, 4, BitVec.ofNat 10 (4 * n.val), 0x100⟩
  s.setWin (s.win.set n ⟨r, r, true, f⟩)

/-- An OUTPUT window 0 and an INPUT window 1, each in this freeze state, in a mode. -/
def twoWin (m : Mode) (f : Freeze) : State := withWin 0 .output .zero f (withWin 1 .input .hold f (inMode m))

/-- A read. -/
def rd (a : Addr) : Access := ⟨a, false, 0b1111#4, 0⟩

/-- A write of all lanes. -/
def wr (a : Addr) (v : Word) : Access := ⟨a, true, 0b1111#4, v⟩

/-- The controller's access waits so, with the class the table gives it now. -/
def waiting (w : Wait) (a : Access) (s : State) : State := s.setCp (.outstanding ⟨a, classify s a, w, false⟩)

/-- An access is in flight. -/
def flying (o : Owner) (a : Access) (s : State) : State := s.setMp (some ⟨a.addr, a.write, a.enables, a.data, o⟩)

/-- The mark stands at 3FFH and is enabled. -/
def marked (s : State) : State := s.setMark ⟨0x3FF, true⟩

/-- A batch record of cycle 7 with these entries, in this stage. -/
def record (es : List Entry) (st : Stage) : BatchRecord := ⟨7, es, [], false, false, false, st⟩

/-- The release queue. -/
def queued (q : List BatchRecord) (s : State) : State := s.setRelease { s.release with queue := q }

/-- An entry of window 0. -/
def entry0 : Entry := ⟨0x100, 0, 0x11223344, 0b1111⟩

/-- A command is in flight. -/
def busy (c : InFlight) (s : State) : State := s.setMg { s.mg with command := some c }

/-- The lock is set with code 5. -/
def locked (s : State) : State := s.setMg { s.mg with locked := true, lockCode := 5 }

/-- The RESET input is asserted. -/
def held : State := after .resetInputAsserted State.reset

/-- A good broadcast command. -/
def broadcast (code : Byte) (v : Byte) : RequestBytes :=
  let b : RequestBytes := ⟨0xF0, code, 0, 0, 0, v, 0⟩
  { b with check := b.expected }

/-- Whether the next state of a command has a property. -/
def holds (c : Instr) (s : State) (p : State → Bool) : Bool :=
  match exec c s with
  | .next t => p t
  | _ => false

/-- The reply a command leaves. -/
def replies (c : Instr) (s : State) (st : Status) (d : Word) : Bool :=
  holds c s fun t => decide (t.mg.reply = some ⟨st, d⟩)

/-! ## Well-formed and ill-formed commands -/

theorem test_endWithoutLine_illFormed : (Instr.memoryPortAccessEnd ⟨false, false⟩ 0).wellFormed = false := by decide

theorem test_frameErrorOfGoodFrame_illFormed : (Instr.frameError (broadcast 4 0)).wellFormed = false := by decide +kernel

theorem test_noPeriods_illFormed : (Instr.qualifyingTimerAdvance .chain 0).wellFormed = false := by decide

theorem test_writeOfUndefinedItem_illFormed : (Instr.writeItem 0x7F 0).wellFormed = false := by decide

theorem test_wellFormed : (Instr.memoryPortAccessEnd ⟨true, false⟩ 0).wellFormed = true ∧
    (Instr.unknownRequest .readItem 0x00 0).wellFormed = true ∧ (Instr.writeItem 0x08 0).wellFormed = true := by decide

/-- The check value the manual's generator gives for the nine digits. -/
theorem test_checkByte : checkByte [0x31, 0x32, 0x33, 0x34, 0x35, 0x36, 0x37, 0x38, 0x39] = 0xF4 := by decide +kernel

/-! ## One step of each command -/

theorem test_reset_isSettled : step State.reset = .next State.reset := rfl

theorem test_powerOn : holds (.powerOn ⟨3, true, true, false⟩) (inMode .run) fun t =>
    decide (t.ctl.mode = .idle) && decide (t.identity = 3) && fltOut t && alrOut t && decide (t.mg.frame = .abandoned) := by decide

theorem test_resetInput : held.lines.resetHeld = true ∧ held.causes.flags = 0 ∧
    holds (.resetInputNegated 2 false) held (fun t => decide (t.causes.flags = 0x200) && decide (t.identity = 2)) = true := by decide

theorem test_fltIn_followsAtZero : holds (.fltInChange true) (inMode .run (State.reset.setCauses
    { State.reset.causes with chain := ⟨0, 0⟩ })) fun t => decide (t.ctl.mode = .safe) && t.causes.flag .chain := by decide

theorem test_alrIn_passesDown : holds (.alrInChange true) held fun t => alrOut t && !fltOut t := by decide

theorem test_access_passes : holds (.controllerAccess (rd 0x100) false) State.reset fun t =>
    decide (t.cp = .outstanding ⟨rd 0x100, .plain, .service .pass, false⟩) := by decide

theorem test_access_staged : holds (.controllerAccess (wr 0x102 9) false) (twoWin .run .opened) fun t =>
    decide (t.pool.openStage = [⟨0x102, 0, 9, 0b1111⟩]) && decide (t.cp = .ended true false 0) := by decide

theorem test_cpReqNegated : holds .cpReqNegated (State.reset.setCp (.ended true false 0)) fun t => decide (t.cp = .idle) := by decide

theorem test_grant : holds (.memoryPortGrant ⟨false, false⟩) (waiting (.service .pass) (rd 0x100) State.reset) fun t =>
    decide (t.mp = some ⟨0x100, false, 0b1111, 0, .pass⟩) := by decide

theorem test_accessEnd : holds (.memoryPortAccessEnd ⟨true, false⟩ 77) (flying .pass (rd 0x100) (waiting .begun (rd 0x100) State.reset))
    fun t => decide (t.cp = .ended true false 77) && decide (t.mp = none) := by decide

theorem test_timeout : holds .memoryPortTimeout (flying .pass (rd 0x100) (waiting .begun (rd 0x100) State.reset)) fun t =>
    decide (t.cp = .ended false true 0) && t.causes.flag .memory := by decide

theorem test_poolStallEnd : holds .poolStallEnd (waiting .poolStall (wr 0x101 5) (twoWin .run .opened)) fun t =>
    decide (t.pool.openStage = [⟨0x101, 0, 5, 0b1111⟩]) := by decide

theorem test_markStallEnd : holds .markStallEnd (queued [record [] .queued] (waiting .markStall (wr 0x3FF 0) (marked (inMode .run))))
    fun t => decide (t.ctl.number = 1) && decide (t.release.queue.length = 2) := by decide

/-- The write stalled in ENDING and the record it waits for. -/
def endingStalled : State :=
  waiting .endingStall (wr 0x100 0) (withWin 0 .output .zero .opened (inMode .ending (State.reset.setRelease ⟨[record [] .marking], none, true⟩)))

theorem test_endingStallEnd : exec .endingStallEnd endingStalled = exec .retirement endingStalled ∧
    holds .endingStallEnd endingStalled (fun t => decide (t.ctl.mode = .idle) &&
      decide (t.cp = .outstanding ⟨wr 0x100 0, .output 0, .service .pass, false⟩)) = true := ⟨rfl, by decide⟩

theorem test_retirement : holds .retirement (inMode .ending (State.reset.setRelease ⟨[record [] .marking], none, true⟩)) fun t =>
    decide (t.ctl.mode = .idle) && decide (t.release.queue = []) := by decide

theorem test_safeFillComplete : holds .safeFillComplete (inMode .safe (State.reset.setFill ⟨[], 0, true, .due⟩)) fun t =>
    !t.fill.active := by decide

theorem test_reissueComplete : holds .reissueComplete (busy .reissue (inMode .safe (State.reset.setReissue ⟨true, none, .due, .reissue⟩)))
    fun t => decide (t.ctl.mode = .armed) && decide (t.mg.lastResult.result = .ok) := by decide

/-- A descriptor of four words at 100H, beside the windows there are. -/
def described (s : State) : State := s.setWin (s.win.set 0 { s.win[0] with descriptor := ⟨0x100, .output, .zero, 4, 0, 0⟩ })

theorem test_commitComplete : holds .commitWindowComplete (busy (.commitWindow 0) (described State.reset)) fun t =>
    t.win[0].defined && decide (t.win[0].record.length = 4) && decide (t.mg.lastResult.result = .ok) := by decide

theorem test_commitComplete_range : holds .commitWindowComplete (busy (.commitWindow 0) State.reset) fun t =>
    !t.win[0].defined && decide (t.mg.lastResult.result = .range) && t.mg.done := by decide

theorem test_dropComplete : holds .dropWindowComplete (busy (.dropWindow 0) (twoWin .idle .opened)) fun t =>
    !t.win[0].defined && t.win[1].defined := by decide

theorem test_watchdogExpiry : holds .watchdogExpiry (inMode .run (State.reset.setTiming
    { State.reset.timing with count := 10, running := true, wdLimit := 10, wdState := .running })) fun t =>
    t.causes.flag .wdog && decide (t.ctl.mode = .safe) := by decide

theorem test_freezeTimerExpiry : holds (.freezeTimerExpiry false)
    ((twoWin .run .frozen).setFreeze ⟨[], 1, .seconds, true, 0, .seconds⟩) fun t =>
    decide (t.win[0].freeze = .thawPending) && t.causes.flag .freezeExpired && !t.freeze.running := by decide

/-- A full stage-low condition: threshold 255 and one entry staged. -/
def low (time : BitVec 8) (timer : Nat) : State :=
  ((inMode .run).setPool ⟨[entry0], 255⟩).setCauses { State.reset.causes with stageLow := ⟨time, timer⟩ }

theorem test_qualifyingTimeReached : holds (.qualifyingTimeReached .stageLow) (low 1 8000) fun t => t.causes.flag .stageLow := by decide

theorem test_frameEnd_wrongLength : holds (.frameEnd ⟨57, broadcast 4 0⟩ 0) (State.reset.setMg { State.reset.mg with frame := .taken })
    fun t => t.causes.flag .link && decide (t.mg.frame = .none) := by decide

theorem test_frameEnd_broadcastSafe : holds (.frameEnd ⟨56, broadcast 4 0⟩ 0) (inMode .armed) fun t =>
    decide (t.ctl.mode = .safe) && decide (t.mg.reply = none) && !t.causes.flag .link := by decide +kernel

theorem test_frameError : holds (.frameError ⟨0x10, 1, 0, 0, 0, 0, 0⟩) State.reset fun t =>
    t.causes.flag .link && decide (t.mg.reply = some ⟨.check, 0⟩) := by decide +kernel

theorem test_unknownRequest : replies (.unknownRequest (.command 0) 0x0C 0) State.reset .unknown 0 = true ∧
    replies (.unknownRequest (.command 0) 0x0B 0) State.reset .ack 0 = true ∧
    replies (.unknownRequest (.command 0) 0x0B 0) (busy (.dropWindow 0) State.reset) .busy 0 = true ∧
    holds (.unknownRequest (.command 5) 0x0A 0x96) (busy (.dropWindow 0) State.reset) (fun t => decide (t.identity = 5)) = true ∧
    replies (.unknownRequest .readItem 0x00 0) State.reset .ack 0x16200100 = true := by decide

theorem test_start : holds (.start 0) (marked (twoWin .idle .opened |>.setTiming { State.reset.timing with wdPeriod := 100 })) fun t =>
    decide (t.ctl.mode = .armed) && decide (t.timing.wdLimit = 1000) && decide (t.mg.reply = some ⟨.ack, 0⟩) := by decide

theorem test_start_refused : replies (.start 0) State.reset .refused 3 = true := by decide

theorem test_stop : holds (.stop 0) (inMode .run) fun t => t.ctl.stopPending := by decide

theorem test_resume : holds (.resume 0) (inMode .safe) fun t => decide (t.ctl.mode = .armed) && decide (t.timing.wdState = .running) := by
  decide

theorem test_safe : holds (.safe .unicast 0) (twoWin .run .freezePending) fun t =>
    decide (t.ctl.mode = .safe) && decide (t.win[0].freeze = .frozen) && decide (t.fill.list = []) := by decide

theorem test_freeze : holds (.freeze 0) ((twoWin .run .opened).setFreeze ⟨[], 3, .seconds, false, 0, .seconds⟩) fun t =>
    decide (t.win[0].freeze = .freezePending) && decide (t.win[1].freeze = .opened) && !t.freeze.running := by decide

theorem test_thaw : holds (.thaw 0) (twoWin .safe .frozen) fun t =>
    decide (t.win[0].freeze = .opened) && decide (t.fill.list = [0]) && t.fill.active := by decide

theorem test_commitWindow : replies (.commitWindow 15) State.reset .accepted 0 = true ∧
    replies (.commitWindow 16) State.reset .refused 3 = true := by decide

theorem test_dropWindow : replies (.dropWindow 15) State.reset .accepted 0 = true ∧
    replies (.dropWindow 0) (inMode .safe) .refused 1 = true := by decide

theorem test_unlock : holds (.unlock 5) (locked State.reset) (fun t => !t.mg.locked) = true ∧
    replies (.unlock 6) (locked State.reset) .refused 2 = true := by decide

theorem test_reset : holds (.reset .unicast 0x96 4) (busy .reissue (inMode .safe)) (fun t =>
    decide (t.identity = 4) && decide (t.causes.flags = 0) && decide (t.mg.reply = some ⟨.ack, 0⟩)) = true ∧
    replies (.reset .unicast 0x97 4) State.reset .refused 3 = true := by decide

theorem test_clearLongest : holds (.clearLongest 0) (State.reset.setTiming { State.reset.timing with longest := 9 }) fun t =>
    decide (t.timing.longest = 0) := by decide

theorem test_causesWrite : holds (.causesWrite 0x200) State.reset fun t => decide (t.causes.flags = 0) := by decide

theorem test_descriptorWrite : holds (.windowDescriptorWrite 15 .b 0x00100404) State.reset fun t =>
    decide (t.win[15].descriptor = ⟨0, .input, .hold, 4, 1, 1⟩) && decide (t.win[15].record.length = 0) := by decide

theorem test_markAddressWrite : holds (.markAddressWrite 0x80000012) State.reset (fun t => decide (t.mark = ⟨0x12, true⟩)) = true ∧
    replies (.markAddressWrite 0x101) (twoWin .idle .opened) .refused 7 = true := by decide

theorem test_markerAddressWrite : holds (.markerAddressWrite 0x101) (twoWin .idle .opened) (fun t =>
    decide (t.marker = ⟨0x101, false⟩)) = true ∧ replies (.markerAddressWrite 0x80000101) (twoWin .idle .opened) .refused 7 = true := by
  decide

theorem test_watchdogPeriodWrite : holds (.watchdogPeriodWrite 65535) State.reset (fun t => decide (t.timing.wdPeriod = 65535)) = true ∧
    replies (.watchdogPeriodWrite 65536) State.reset .refused 4 = true := by decide

theorem test_prescaleWrite : holds (.prescaleWrite 128) (locked State.reset) (fun t => decide (t.timing.prescale = 128)) = true ∧
    replies (.prescaleWrite 3) State.reset .refused 4 = true := by decide

theorem test_thresholdWrite : holds (.stageLowThresholdWrite 255) ((low 0 0).setPool ⟨[entry0], 0⟩) (fun t =>
    t.causes.flag .stageLow) = true ∧ replies (.stageLowThresholdWrite 256) State.reset .refused 4 = true := by decide

theorem test_freezeTimerWrite : holds (.freezeTimerWrite 0x1FF) State.reset fun t =>
    decide (t.freeze.setting = 255) && decide (t.freeze.range = .minutes) := by decide

theorem test_qualifyWrite : holds (.qualifyWrite .stageLow 1) (low 10 8000) fun t => t.causes.flag .stageLow := by decide

theorem test_actionsWrite : holds (.actionsWrite 0xFF) State.reset (fun t => decide (t.causes.actions = 0xFF)) = true ∧
    replies (.actionsWrite 0x100) State.reset .refused 3 = true := by decide

theorem test_priorityLists : holds (.priorityListBWrite 0x01) (after (.priorityListAWrite 0x98765432) State.reset) (fun t =>
    decide (t.causes.priority = [.chain, .torn, .overrun, .stageLow, .freezeExpired, .inputWrite, .link, .powerOn, .memory, .wdog])) = true ∧
    replies (.priorityListBWrite 0x88) State.reset .refused 3 = true := by decide

theorem test_quietMarkWrite : holds (.quietMarkWrite 0) State.reset (fun t => !alrOut t) = true ∧ alrOut State.reset = true := by decide

theorem test_forceWrite : holds (.forceWrite 1) (locked State.reset) fun t => fltOut t := by decide

theorem test_resumePolicyWrite : holds (.resumePolicyWrite 1) State.reset (fun t => decide (t.reissue.policy = .reissue)) = true ∧
    replies (.resumePolicyWrite 2) State.reset .refused 3 = true := by decide

theorem test_lockWrite : holds (.lockWrite 5) State.reset (fun t => t.mg.locked && decide (t.mg.lockCode = 5)) = true ∧
    replies (.lockWrite 0) State.reset .refused 3 = true := by decide

theorem test_imagePointerWrite : holds (.imagePointerWrite 1023) State.reset (fun t => decide (t.pointer = 1023)) = true ∧
    replies (.imagePointerWrite 1024) State.reset .refused 4 = true := by decide

theorem test_imageDataWrite : holds (.imageDataWrite 0x11002233) (State.reset.setPointer 1023) fun t =>
    decide (t.image.word 1023 = 0x11002233) && decide (t.image.data = [(4092, 0x33), (4093, 0x22), (4095, 0x11)]) &&
      decide (t.pointer = 0) := by decide

theorem test_writeItem : holds (.writeItem 0x11 2) State.reset (fun t => t.causes.forceAlert) = true ∧
    replies (.writeItem 0x00 0) State.reset .refused 3 = true := by decide

theorem test_stateRead : replies .stateRead (inMode .run (State.reset.setMg { State.reset.mg with done := true })) .ack 0x102 = true ∧
    holds .stateRead (State.reset.setMg { State.reset.mg with done := true }) (fun t => !t.mg.done) = true := by decide

theorem test_captureRead : replies .captureRead (State.reset.setTiming { State.reset.timing with capture := 5, captured := true }) .ack
    0x01000005 = true := by decide

theorem test_imageDataRead : holds .imageDataRead (State.reset.setPointer 7) fun t => decide (t.pointer = 8) := by decide

theorem test_periodCounterAdvance : holds .periodCounterAdvance (State.reset.setTiming
    { State.reset.timing with running := true, count := 0xFFFFFF }) fun t => decide (t.timing.count = 0xFFFFFF) := by decide

theorem test_freezeTimerCountDown : holds .freezeTimerCountDown (State.reset.setFreeze ⟨[], 3, .seconds, true, 3, .seconds⟩) fun t =>
    decide (t.freeze.remaining = 2) := by decide

theorem test_qualifyingTimerAdvance : holds (.qualifyingTimerAdvance .stageLow 9000) (low 1 0) fun t =>
    decide (t.causes.stageLow.timer = 8000) := by decide

/-! ## The hypotheses of the statements are met

Each theorem names the statement it stands for; its conjuncts meet the hypotheses of that statement's clauses in their order, at the
ends of their ranges. -/

/-- A bridge in RUN with an OUTPUT and an INPUT window, as a run has it. -/
def running : State :=
  (twoWin .run .opened).setTiming { State.reset.timing with running := true, wdPeriod := 1, wdLimit := 10, wdState := .running }

theorem witness_RequestsNotTaken :
    (isRequest (.stop 0) = true ∧ ¬Listening held) ∧ (isRequest .stateRead = true ∧ ¬Listening (State.reset.setIdentity 7)) ∧
    (isBusyTested (.writeItem 0x9F 0) = true ∧ Listening (busy (.dropWindow 0) State.reset) ∧
      (busy (.dropWindow 0) State.reset).mg.command ≠ none) := by decide

theorem held_HeldInv : HeldInv held := fun _ => ⟨rfl, trivial⟩

theorem witness_ResetLinesResult : (held.lines.resetHeld = true ∧ HeldInv held) ∧
    (HeldInv (after (.controllerAccess (rd 0) false) held) ∧
      (after (.controllerAccess (rd 0) false) held).cp = .outstanding ⟨rd 0, .plain, .held, false⟩) ∧
    (HeldInv (held.setCp (.ended false false 0))) ∧ State.reset.lines.resetHeld = false :=
  ⟨⟨rfl, held_HeldInv⟩, ⟨fun _ => ⟨rfl, rfl, rfl, rfl⟩, rfl⟩, fun _ => ⟨rfl, rfl, rfl, rfl⟩, rfl⟩

theorem witness_ResetCommandResult : Listening State.reset ∧ (0x96#32 = 0x96#32) ∧ (0x97#32 ≠ 0x96#32) ∧
    State.reset.lines.resetHeld = false ∧ State.reset.mg.frame ≠ .abandoned := by decide

theorem witness_PowerOnResult : State.reset.lines.resetHeld = false ∧ held.lines.resetHeld = true := by decide

theorem witness_HeldKept : HeldInv held ∧ step held = .next held := ⟨held_HeldInv, rfl⟩

theorem witness_ModesKept : ModeInv (running.setPending [.safe .unicast 0]) ∧ OrderInv (running.setPending [.safe .unicast 0]) ∧
    step (running.setPending [.safe .unicast 0]) = .next (after (.safe .unicast 0) running) := ⟨by decide, by decide, rfl⟩

theorem witness_ImageFormKept : (running.setPending [.start 0]).image.wf ∧
    step (running.setPending [.start 0]) = .next (after (.start 0) running) := ⟨by decide, rfl⟩

theorem witness_WindowsKept : WindowInv (running.setPending [.commitWindow 0]) ∧
    step (running.setPending [.commitWindow 0]) = .next (after (.commitWindow 0) running) := ⟨by decide, rfl⟩

theorem witness_MarksKept : running.image.wf ∧ WindowInv running ∧ MarksInv running ∧ step running = .next running := by
  refine ⟨by decide, by decide, fun w => ⟨fun _ => rfl, ?_, fun n _ _ => ?_⟩, rfl⟩
  · change (0#4 &&& ~~~0#4) = 0
    decide
  · split <;> exact ⟨rfl, rfl⟩

theorem witness_CausesLatchAndLead : State.reset.causes.leadCause = some .powerOn ∧ held.causes.leadCause = none ∧
    State.reset.causes.flag .powerOn = true ∧
    (running.causes.flag .torn = false ∧ running.causes.actionSafe .torn = false) ∧
    (State.reset.causes.flag .wdog = false ∧ State.reset.ctl.mode = .idle) ∧
    ((inMode .safe).causes.flag .wdog = false ∧ (inMode .safe).ctl.mode = .safe ∧ (inMode .safe).reissue.resuming = false) ∧
    (running.causes.flag .wdog = false ∧ running.causes.actionSafe .wdog = true ∧ running.ctl.mode = .run) ∧
    (inMode .armed).ctl.mode = .armed ∧ (inMode .ending).ctl.mode = .ending ∧
    ((busy .reissue (inMode .safe (State.reset.setReissue ⟨true, none, .marker, .reissue⟩))).causes.flag .memory = false ∧
      (busy .reissue (inMode .safe (State.reset.setReissue ⟨true, none, .marker, .reissue⟩))).causes.actionSafe .memory = true ∧
      (busy .reissue (inMode .safe (State.reset.setReissue ⟨true, none, .marker, .reissue⟩))).reissue.resuming = true) := by decide

/-- The write in flight of a reissue that is abandoned brings nothing on at its end (R150). -/
theorem test_abandoned_write :
    (latch .memory (busy .reissue (flying (.reissueWord 0 true) (wr 0x100 0) ((twoWin .safe .opened).setReissue
      ⟨true, some (0, 0), .words, .reissue⟩)))).mp = some ⟨0x100, true, 0b1111, 0, .reissueWord 0 false⟩ := by decide

/-- The stage-low cause with this qualifying time, its condition false. -/
def quietLow (time : BitVec 8) : State := State.reset.setCauses { State.reset.causes with stageLow := ⟨time, 0⟩ }

theorem witness_LevelCausesFollow :
    ((low 0 0).causes.level .stageLow).time = 0 ∧ condition (low 0 0) .stageLow = true ∧
    ((quietLow 0).causes.level .stageLow).time = 0 ∧ condition (quietLow 0) .stageLow = false ∧
    ((low 255 0).causes.level .stageLow).time ≠ 0 ∧ condition (low 255 0) .stageLow = true ∧
    ((quietLow 255).causes.level .stageLow).time ≠ 0 ∧ condition (quietLow 255) .stageLow = false ∧
    held.lines.resetHeld = true ∧ (low 1 8000).lines.resetHeld = false ∧
    queuedCount (flying (.entry 0 .dropped) (wr 0x100 0) (low 0 0)) = 1 ∧ queuedCount (low 0 0) = 0 ∧
    ((low 1 8000).causes.level .stageLow).time ≠ 0 ∧ condition (low 1 8000) .stageLow = true ∧
    (low 1 8000).causes.flag .stageLow = false ∧
    ((low 1 8000).causes.level .stageLow).time.toNat * 8000 ≤ ((low 1 8000).causes.level .stageLow).timer ∧
    ((low 1 7999).causes.level .stageLow).timer < ((low 1 7999).causes.level .stageLow).time.toNat * 8000 := by decide

/-- A period counter at a count, with the watchdog running against 10. -/
def counted (k : BitVec 24) : State := running.setTiming { running.timing with count := k }

theorem witness_ClocksAdvance : running.lines.resetHeld = false ∧ held.lines.resetHeld = true ∧
    ((counted 10).timing.wdState = .running ∧ (counted 10).timing.wdLimit ≤ (counted 10).timing.count.toNat) ∧
    (counted 9).timing.count.toNat < (counted 9).timing.wdLimit ∧ State.reset.timing.wdState ≠ .running := by decide

/-- The freeze timer has run out in a mode, with both windows FROZEN. -/
def expired (m : Mode) : State := (twoWin m .frozen).setFreeze ⟨[], 1, .seconds, true, 0, .seconds⟩

/-- The same with the action SAFE, a reissue under way in SAFE. -/
def expiredSafe (m : Mode) : State :=
  let s := (expired m).setCauses { State.reset.causes with actions := 0x40 }
  if m = .safe then busy .reissue (s.setReissue ⟨true, none, .marker, .reissue⟩) else s

theorem witness_FreezeTimerExpires : (∀ m ∈ [Mode.armed, .run, .safe], (expired m).lines.resetHeld = false ∧
    (expired m).freeze.running = true ∧ (expired m).freeze.remaining = 0 ∧ (expired m).ctl.mode = m ∧ (expired m).cp = .idle ∧
    (expired m).causes.actionSafe .freezeExpired = false ∧ ((expired m).win[0]).freeze = .frozen ∧
    isFilled (expired m).win[0] = true) ∧
    ([0, 1] : List WinIdx).Pairwise (· < ·) ∧ (∀ n ∈ ([0, 1] : List WinIdx), ((expired .safe).win[n]).freeze = .frozen) ∧
    (expired .safe).reissue.resuming = false ∧
    (∀ m ∈ [Mode.armed, .run, .safe], (expiredSafe m).lines.resetHeld = false ∧ (expiredSafe m).freeze.running = true ∧
      (expiredSafe m).freeze.remaining = 0 ∧ (expiredSafe m).causes.actionSafe .freezeExpired = true ∧
      (expiredSafe m).causes.flag .freezeExpired = false ∧ (expiredSafe m).ctl.mode = m ∧ (expiredSafe m).cp = .idle) ∧
    (expiredSafe .safe).reissue.resuming = true := by decide

/-- With the action SAFE the thawed window stands at the tail of the fill list where SAFE entry came first, and at its own index where
the thaws did (R118, R137, R140, log 7). -/
theorem test_freezeExpiry_order_of_the_fill :
    (∀ m ∈ [Mode.armed, .run, .safe],
      holds (.freezeTimerExpiry true) (withWin 2 .output .zero .opened (expiredSafe m)) (fun t => decide (t.fill.list = [2, 0])) = true ∧
      holds (.freezeTimerExpiry false) (withWin 2 .output .zero .opened (expiredSafe m)) (fun t => decide (t.fill.list = [0, 2])) = true) := by
  decide

theorem witness_CheckByteComputed : (broadcast 4 0).operation ≠ 3 := by decide

/-- A request has been taken and its reply is held. -/
def replied : State := after .stateRead State.reset

theorem witness_ReplyClockedOut : replied.mg.frame = .taken ∧ replied.mg.reply = some ⟨.ack, 0⟩ ∧
    (0 = 8 * (0 : Fin 6).val + (0 : Fin 8).val) ∧ (47 = 8 * (5 : Fin 6).val + (7 : Fin 8).val) ∧ 48 ≤ 48 ∧
    State.reset.mg.reply = none ∧ State.reset.mg.frame = .none ∧ (after (.powerOn ⟨0, true, false, false⟩) replied).mg.frame = .abandoned ∧
    ((after (.frameError ⟨0x10, 1, 0, 0, 0, 0, 0⟩) State.reset).mg.frame = .errored ∧
      (after (.frameError ⟨0x10, 1, 0, 0, 0, 0, 0⟩) State.reset).mg.reply = some ⟨.check, 0⟩) := by decide +kernel

/-- The frame on the link is in this phase. -/
def framed (f : FramePhase) : State := State.reset.setMg { State.reset.mg with frame := f }

/-- A read of STATE addressed to identity 0 with this header and a good check byte. -/
def ours (header : Byte) : RequestBytes :=
  let b : RequestBytes := ⟨header, 1, 0, 0, 0, 0, 0⟩
  { b with check := b.expected }

theorem witness_FrameEndResult : (∀ f, (framed f).lines.resetHeld = false ∧ (framed f).mg.frame = f) ∧
    (∀ e ∈ [0, 7], e < 8) ∧ (∀ e ∈ [55, 57, 103, 105], e ≠ 56 ∧ e ≠ 104) ∧ 8 ≤ 56 ∧
    ((RequestBytes.mk 0x20 1 0 0 0 0 0).target ≠ 7 ∧ (RequestBytes.mk 0x20 1 0 0 0 0 0).target ≠ State.reset.identity) ∧
    (broadcast 4 0).target = 7 ∧ (broadcast 4 0).check = (broadcast 4 0).expected ∧ (broadcast 4 0).operation = 2 ∧
    (broadcast 4 0).number = 0x04 ∧ (broadcast 0x0A 0x96).check = (broadcast 0x0A 0x96).expected ∧
    (broadcast 0x0A 0x96).number = 0x0A ∧ (broadcast 9 0).number ≠ 0x04 ∧ (broadcast 9 0).number ≠ 0x0A ∧
    (RequestBytes.mk 0xF0 4 0 0 0 0 0).check ≠ (RequestBytes.mk 0xF0 4 0 0 0 0 0).expected ∧
    ((ours 0x10).target = State.reset.identity ∧ State.reset.identity ≠ 7 ∧ (ours 0x10).check = (ours 0x10).expected ∧
      (ours 0x10).operation ≠ 3 ∧ (ours 0x18).operation = 3 ∧ (55 ≠ 56 ∧ 55 ≠ 104)) :=
  ⟨fun f => ⟨rfl, rfl⟩, by decide +kernel⟩

theorem witness_BadRequestsAnswered : State.reset.lines.resetHeld = false ∧ State.reset.mg.frame ≠ .abandoned ∧
    ((RequestBytes.mk 0x10 1 0 0 0 0 0).check ≠ (RequestBytes.mk 0x10 1 0 0 0 0 0).expected ∧
      (RequestBytes.mk 0x10 1 0 0 0 0 0).target = State.reset.identity ∧ State.reset.identity ≠ 7) ∧
    ((RequestBytes.mk 0xF8 1 0 0 0 0 0).operation = 3 ∧ (RequestBytes.mk 0xF8 1 0 0 0 0 0).target = 7) ∧
    ((RequestBytes.mk 0x38 1 0 0 0 0 0).target ≠ 7 ∧ (RequestBytes.mk 0x38 1 0 0 0 0 0).target ≠ State.reset.identity) ∧
    ((broadcast 4 0).check = (broadcast 4 0).expected ∧ (broadcast 4 0).operation ≠ 3) ∧
    Listening State.reset ∧ Item.ofNumber 0x03 = none ∧ Item.ofNumber 0xA0 = none ∧ (0x00#8).toNat = 0 ∧
    11 < (0x0C#8).toNat := by decide +kernel

theorem witness_ReadsAnswered : Listening State.reset ∧ Item.ofNumber 0x00 = some .ident ∧
    Item.ofNumber 0x9F = some (.window 15 .b) ∧ Item.ofNumber 0x01 = some .state ∧ Item.ofNumber 0x24 = some .capture ∧
    Item.ofNumber 0x41 = some .imageData := by decide

theorem witness_UnlockResult : (Listening (busy (.dropWindow 0) State.reset) ∧ (busy (.dropWindow 0) State.reset).mg.command ≠ none) ∧
    (Attending (locked State.reset) ∧ (locked State.reset).mg.locked = true ∧ 5 = (locked State.reset).mg.lockCode ∧
      6 ≠ (locked State.reset).mg.lockCode) ∧
    (Attending State.reset ∧ State.reset.mg.locked = false) ∧
    (State.reset.mg.frame = .none ∧ (broadcast 9 0).target = 7 ∧ (broadcast 9 0).check = (broadcast 9 0).expected ∧
      (broadcast 9 0).operation = 2 ∧ (broadcast 9 0).number = 0x09) := by decide +kernel

/-- A bridge in IDLE with two windows and a watchdog period. -/
def ready : State := (twoWin .idle .opened).setTiming { State.reset.timing with wdPeriod := 1 }

theorem witness_StartResult : (Listening (busy (.dropWindow 0) State.reset) ∧ (busy (.dropWindow 0) State.reset).mg.command ≠ none) ∧
    (State.reset.mg.frame = .none ∧ (broadcast 1 0).target = 7 ∧ (broadcast 1 0).check = (broadcast 1 0).expected ∧
      (broadcast 1 0).operation = 2 ∧ (broadcast 1 0).number = 0x01) ∧
    (Attending running ∧ running.ctl.mode ≠ .idle) ∧
    (Attending State.reset ∧ State.reset.ctl.mode = .idle ∧ ∀ n : WinIdx, (State.reset.win[n]).defined = false) ∧
    (Attending (twoWin .idle .opened) ∧ (twoWin .idle .opened).ctl.mode = .idle ∧
      (∃ n : WinIdx, ((twoWin .idle .opened).win[n]).defined = true) ∧ (twoWin .idle .opened).timing.wdPeriod = 0) ∧
    (Attending ready ∧ ready.ctl.mode = .idle ∧ (∃ n : WinIdx, (ready.win[n]).defined = true) ∧ ready.timing.wdPeriod ≠ 0 ∧
      ready.mark.enabled = false) ∧
    ((marked ready).mark.enabled = true ∧ (marked ready).cp = .idle ∧ Attending (marked ready)) := by decide +kernel

theorem witness_StopResult : (∀ m ∈ [Mode.idle, .armed, .run, .ending, .safe], Attending (inMode m) ∧ (inMode m).ctl.mode = m ∧
      (inMode m).ctl.stopPending = false ∧ (∀ n : WinIdx, ((inMode m).win[n]).freeze = .opened) ∧ (inMode m).fill.active = false ∧
      (inMode m).cp = .idle) ∧
    (Attending (after (.stop 0) (inMode .run)) ∧ (after (.stop 0) (inMode .run)).ctl.stopPending = true) ∧
    (∀ m ∈ [Mode.armed, .run, .safe], Attending (twoWin m .frozen) ∧ ∃ n : WinIdx, ((twoWin m .frozen).win[n]).freeze = .frozen) ∧
    (Attending (after (.safe .broadcast 0) (inMode .run)) ∧ (after (.safe .broadcast 0) (inMode .run)).ctl.mode = .safe ∧
      (after (.safe .broadcast 0) (inMode .run)).fill.active = true) := by decide

theorem witness_ResumeResult : (Attending running ∧ running.ctl.mode ≠ .safe) ∧
    (Attending (after (.safe .broadcast 0) running) ∧ (after (.safe .broadcast 0) running).fill.active = true) ∧
    (Attending (inMode .safe) ∧ (inMode .safe).ctl.mode = .safe ∧ (inMode .safe).fill.active = false ∧
      (inMode .safe).lines.fltIn = false ∧ (inMode .safe).reissue.policy = .fresh ∧ (inMode .safe).cp = .idle) ∧
    (∀ c, (inMode .safe).causes.flag c = true → (inMode .safe).causes.actionSafe c = false) ∧
    (∃ c, (latch .wdog (inMode .safe)).causes.flag c = true ∧ (latch .wdog (inMode .safe)).causes.actionSafe c ≠ false) ∧
    (after (.fltInChange true) (inMode .safe)).lines.fltIn = true ∧
    (after (.resumePolicyWrite 1) (inMode .safe)).reissue.policy = .reissue ∧
    ((after (.resumePolicyWrite 1) (inMode .safe)).image.wf ∧ Wait.begun.movable = false) :=
  ⟨by decide, by decide, by decide, fun c => by cases c <;> decide, ⟨.wdog, by decide⟩, by decide, by decide, by decide⟩

theorem witness_SafeResult : (∀ m ∈ [Mode.idle, .armed, .run, .ending, .safe],
      Attending (inMode m) ∧ (inMode m).ctl.mode = m ∧ (inMode m).lines.resetHeld = false ∧ (inMode m).mg.frame ≠ .abandoned) ∧
    (Wait.begun.movable = false ∧ (Wait.service .pass).movable = true ∧ Wait.poolStall.movable = true) ∧
    (classify running (wr 0x100 0) = .output 0 ∧ classify running (wr 0x200 0) = .input 1 ∧ classify running (rd 0x3FF) = .plain ∧
      classify (marked running) (wr 0x3FF 0) = .mark) ∧
    (enterSafe (flying (.entry 0 .queued) (wr 0x100 0) running)).mp = some ⟨0x100, true, 0b1111, 0, .entry 0 .dropped⟩ ∧
    (enterSafe (flying (.walkRead 1 false) (rd 0x200) running)).mp = some ⟨0x200, false, 0b1111, 0, .walkRead 1 true⟩ ∧
    (enterSafe running).fill.phase = .words ∧ (enterSafe (inMode .run)).fill.phase = .due ∧
    stageLowCondition (enterSafe (low 0 0)) = false ∧
    stageLowCondition (enterSafe (flying (.entry 0 .dropped) (wr 0x100 0) (low 0 0))) = true := by decide

/-- The freeze timer has a setting. -/
def timed (s : State) : State := s.setFreeze { s.freeze with setting := 1 }

theorem witness_FreezeAndThawResult : 15 < (16#32).toNat ∧ (15#32).toNat = (15 : WinIdx).val ∧ (0#32).toNat = (0 : WinIdx).val ∧
    (∀ m ∈ [Mode.idle, .ending], Attending (inMode m) ∧ (inMode m).ctl.mode = m) ∧
    (after (.stop 0) (inMode .run)).ctl.stopPending = true ∧
    (∀ m ∈ [Mode.armed, .run, .safe], ∀ f ∈ [Freeze.opened, .frozen], Attending (timed (twoWin m f)) ∧ (twoWin m f).ctl.mode = m ∧
      (twoWin m f).ctl.stopPending = false ∧ ((twoWin m f).win[0]).defined = true ∧ ((twoWin m f).win[15]).defined = false ∧
      (twoWin m f).freeze.setting = 0 ∧ (timed (twoWin m f)).freeze.setting ≠ 0 ∧ (twoWin m f).cp = .idle ∧
      ((twoWin m f).win[0]).freeze = f ∧ isFilled (twoWin m f).win[0] = true) := by decide

theorem witness_DropWindowResult : Attending running ∧ running.ctl.mode ≠ .idle ∧ 15 < (16#32).toNat ∧
    (15#32).toNat = (15 : WinIdx).val ∧ (Attending (locked State.reset) ∧ (locked State.reset).mg.locked = true) ∧
    (Attending State.reset ∧ State.reset.ctl.mode = .idle ∧ State.reset.mg.locked = false) ∧
    (busy (.dropWindow 0) ready).mg.command = some (.dropWindow 0) ∧ (ready.win[0]).defined = true ∧
    (ready.win[15]).defined = false ∧ ready.image.wf := by decide

/-- Window 15 described over words from this base. -/
def redescribed (base : Addr) (length : BitVec 9) (s : State) : State :=
  busy (.commitWindow 15) (s.setWin (s.win.set 15 { s.win[15] with descriptor := ⟨base, .output, .hold, length, 512, 0⟩ }))

theorem witness_CommitWindowCompletes :
    (redescribed 0 256 ready).mg.command = some (.commitWindow 15) ∧ ready.image.wf ∧
    commitCheck (redescribed 0x104 252 (marked ready)) 15 = .ok ∧ commitCheck (redescribed 0 0 ready) 15 = .range ∧
    commitCheck (redescribed 0 257 ready) 15 = .range ∧ commitCheck (redescribed 0x103 1 ready) 15 = .overlap ∧
    commitCheck (redescribed 0x3FF 1 (marked ready)) 15 = .mark ∧
    commitCheck (busy (.commitWindow 15) (ready.setWin (ready.win.set 15
      { ready.win[15] with descriptor := ⟨0x300, .output, .hold, 1, 3, 0⟩ }))) 15 = .slice ∧
    commitCheck (busy (.commitWindow 15) (ready.setWin (ready.win.set 15
      { ready.win[15] with descriptor := ⟨0x300, .output, .pattern, 4, 768, 771⟩ }))) 15 = .slice ∧
    commitCheck (busy (.commitWindow 15) (ready.setWin (ready.win.set 15
      { ready.win[15] with descriptor := ⟨0x300, .output, .pattern, 4, 1016, 1020⟩ }))) 15 = .ok := by decide

theorem witness_WindowItemsWritten : (Attending (locked State.reset) ∧ (locked State.reset).mg.locked = true) ∧
    (Attending State.reset ∧ State.reset.mg.locked = false ∧ State.reset.ctl.mode = .idle) ∧ (Attending running ∧ running.ctl.mode ≠ .idle) ∧
    (Attending ready ∧ (∃ n : WinIdx, (ready.win[n]).covers 0x103 = true) ∧ ¬∃ n : WinIdx, (ready.win[n]).covers 0x104 = true) := by
  decide

theorem witness_UnlockedWritesTaken : Attending (locked running) ∧ (0x4#32).getLsbD (LevelCause.chain.cause.num) = true ∧
    (State.reset.causes.level .chain).time ≠ 0 ∧ (0#32).getLsbD (LevelCause.chain.cause.num) = false := by decide

theorem witness_RangedAndLinkWritesTaken : Attending (locked running) ∧ (1#32).toNat = 2 ^ (0 : Fin 8).val ∧
    (128#32).toNat = 2 ^ (7 : Fin 8).val ∧ (¬∃ k : Fin 8, (0#32).toNat = 2 ^ k.val) ∧ (¬∃ k : Fin 8, (256#32).toNat = 2 ^ k.val) ∧
    (1023#32).toNat ≤ 1023 ∧ 1023 < (1024#32).toNat ∧ (locked running).mg.locked = true ∧
    (Attending running ∧ running.mg.locked = false ∧ running.ctl.mode ≠ .idle) ∧
    (Attending State.reset ∧ State.reset.ctl.mode = .idle ∧ State.reset.mg.locked = false ∧ State.reset.image.wf) ∧
    (Attending (locked State.reset) ∧ (locked State.reset).ctl.mode = .idle) := by decide

theorem witness_LockedWritesTaken : Attending running ∧ running.mg.locked = false ∧ Attending (locked running) ∧
    (locked running).mg.locked = true ∧ 65535 < (65536#32).toNat ∧ ¬(65535#32 = 0 ∨ 65535 < (65535#32).toNat) ∧
    255 < (256#32).toNat ∧ ¬255 < (255#32).toNat ∧ 10 < (11#32).toNat ∧ ¬10 < (10#32).toNat ∧ 1 < (2#32).toNat ∧
    ¬1 < (1#32).toNat ∧ (0x100#32)[8] = true ∧ ¬((0xFF#32)[8] = true ∨ (0xFF#32)[9] = true) := by decide

theorem witness_QualifyAndPriorityWritten : (Attending (low 10 8000) ∧ (low 10 8000).mg.locked = false ∧
    ((10#32).setWidth 8 : BitVec 8) = ((low 10 8000).causes.level .stageLow).time ∧
    ((0#32).setWidth 8 : BitVec 8) ≠ ((low 10 8000).causes.level .stageLow).time ∧
    (condition (low 10 8000) .stageLow = true ∧ (low 10 8000).causes.flag .stageLow = false ∧
      ((1#32).setWidth 8 : BitVec 8).toNat * 8000 ≤ ((low 10 8000).causes.level .stageLow).timer) ∧
    ((low 10 8000).causes.level .stageLow).timer < ((2#32).setWidth 8 : BitVec 8).toNat * 8000) ∧
    ((latch .stageLow (low 10 8000)).causes.flag .stageLow = true ∧
      ((1#32).setWidth 8 : BitVec 8).toNat * 8000 ≤ ((latch .stageLow (low 10 8000)).causes.level .stageLow).timer ∧
      holds (.qualifyWrite .stageLow 1) (latch .stageLow (low 10 8000)) (fun t => t.causes.flag .stageLow &&
        decide (t.causes.stageLow = ⟨1, 8000⟩) && decide (t.ctl.mode = .run)) = true) ∧
    (Attending (locked State.reset) ∧ (locked State.reset).mg.locked = true ∧ Attending State.reset ∧
    State.reset.mg.locked = false ∧ State.reset.causes.priority.map Cause.num = [0, 1, 2, 3, 4, 5, 6, 7, 8, 9] ∧
    State.reset.causes.priority.Nodup ∧ layoutPriorityA State.reset.causes.priority = 0x76543210) := by decide

/-- A list in which cause number 8 stands twice is no list, locked or not. -/
theorem witness_QualifyAndPriorityWritten_noList :
    ¬∃ l : List Cause, l.map Cause.num = [0, 1, 2, 3, 4, 5, 6, 7, 8, 8] ∧ l.Nodup := by
  rintro ⟨l, h, hn⟩
  have h2 : (l.map Cause.num).Nodup := (List.nodup_map_iff fun a b hab => by revert hab; cases a <;> cases b <;> decide).2 hn
  rw [h] at h2
  exact absurd h2 (by decide)

theorem witness_RequestsGoByNumberAndCode : Command.ofCode 0x01 = some .start ∧ Command.ofCode 0x0B = some .clearLongest ∧
    Attending State.reset ∧ Item.ofNumber 0x7F = none ∧ Item.ofNumber 0xA0 = none := by decide

/-- The two windows in RUN with the mark enabled. -/
def scanning : State := marked running

theorem witness_RoutingTable : (isMark scanning (wr 0x3FF 0) = true ∧ scanning.mark.enabled = true) ∧
    (isMark scanning (rd 0x3FF) = false ∧ ∀ n : WinIdx, (scanning.win[n]).covers 0x3FF = false) ∧
    (isMark scanning (rd 0x103) = false ∧ findWin scanning.win 0x103 = some 0 ∧ findWin scanning.win 0x200 = some 1) ∧
    (scanning.win[0]).record.kind = .output ∧ (scanning.win[1]).record.kind = .input ∧ (wr 0 0).enables ≠ 0 := by decide

theorem witness_AccessWaitsOrEnds :
    (CpOpen scanning ∧ treatment scanning (rd 0x104) = .pass) ∧
    (CpOpen (twoWin .armed .opened) ∧ treatment (twoWin .armed .opened) (wr 0x103 0) = .passImage 0) ∧
    (CpOpen (twoWin .ending .opened) ∧ treatment (twoWin .ending .opened) (wr 0x100 0) = .endingStall) ∧
    (held.cp = .idle ∧ held.lines.resetHeld = true) ∧ (waiting .poolStall (rd 0) running).cp ≠ .idle ∧
    (CpOpen (twoWin .safe .opened) ∧ treatment (twoWin .safe .opened) (wr 0x100 0) = .discard false ∧
      treatment (twoWin .safe .opened) (wr 0x200 0) = .discard true ∧ treatment (twoWin .safe .opened) (rd 0x203) = .held 1) ∧
    treatment scanning ⟨0x100, true, 0, 0⟩ = .ack ∧ treatment scanning (wr 0x200 0) = .passNoted ∧
    portFree (flying .pass (rd 0) scanning) = false ∧
    (portFree scanning = true ∧ cutOffAddr scanning.win 0x200 = false ∧ holds (.controllerAccess (wr 0x200 5) true) scanning (fun t =>
      decide (t.mp = some ⟨0x200, true, 0b1111, 5, .pass⟩) && t.causes.flag .inputWrite &&
        decide (t.cp = .outstanding ⟨wr 0x200 5, .input 1, .begun, true⟩)) = true) := by decide

/-- A mark is set on the word the input window keeps for 200H. -/
def freshWord : State := running.setImage (running.image.mark 4 (Marks.sampled true))

/-- The word of window 0 at 100H is valid in the image, and staged on two lanes. -/
def merged (f : Freeze) : State :=
  let s := withWin 0 .output .zero f running
  (s.setImage ((s.image.writeLanes 0 0b1111 0x44332211).mark 0 (Marks.settle 0b1111))).setPool ⟨[⟨0x100, 0, 0xAABB, 0b0011⟩], 16⟩

theorem witness_WindowReadsServed : ((CpOpen running ∧ treatment running (rd 0x200) = .sampled 1) ∧
    ((freshWord.image.marksAt 4).fresh = true ∧ treatment freshWord (rd 0x200) = .sampled 1) ∧
    (running.image.marksAt 4).fresh = false ∧
    (flying (.walkRead 1 false) (rd 0x200) running).mp = some ⟨0x200, false, 0b1111, 0, .walkRead 1 false⟩ ∧ running.mp = none) ∧
    ((CpOpen (merged .opened) ∧ treatment (merged .opened) (rd 0x100) = .merged 0 ∧
      holds (.controllerAccess (rd 0x100) false) (merged .opened) (fun t => decide (t.cp = .ended true false 0x4433AABB)) = true) ∧
    (CpOpen running ∧ treatment running (rd 0x103) = .merged 0 ∧ running.pool.openStage = [] ∧ (running.image.marksAt 3).valid = 0) ∧
    treatment (merged .frozen) (rd 0x101) = .mergedNoMem 0) := by decide

/-- No entry is free: 256 are staged, or all but one are and that one's write is in flight after a purge. -/
def full (inFlight : Bool) : State :=
  let l := List.replicate (if inFlight then 255 else 256) entry0
  let s := running.setPool ⟨l, 16⟩
  if inFlight then flying (.entry 0 .purged) (wr 0x100 0) s else s

theorem witness_StagedWriteTaken : (CpOpen running ∧ treatment running (wr 0x101 0) = .staged 0 ∧
      running.pool.openStage.find? (fun e => decide (e.addr = 0x101)) = none ∧ 0 < freeCount running) ∧
    (CpOpen (full true) ∧ treatment (full true) (wr 0x101 0) = .staged 0 ∧ freeCount (full true) = 0 ∧ queuedCount (full true) = 1 ∧
      (full true).pool.openStage.find? (fun e => decide (e.addr = 0x101)) = none) ∧
    ((merged .opened).pool.openStage = [] ++ ⟨0x100, 0, 0xAABB, 0b0011⟩ :: [] ∧ treatment (merged .opened) (wr 0x100 0) = .staged 0) := by
  decide +kernel

theorem witness_FrozenAndTornWritesTaken : (CpOpen (twoWin .armed .frozen) ∧ (twoWin .armed .frozen).image.wf ∧
    treatment (twoWin .armed .frozen) (wr 0x103 1) = .imageOwed 0) ∧
    CpOpen (full false) ∧ treatment (full false) (wr 0x101 0) = .staged 0 ∧
    (full false).pool.openStage.find? (fun e => decide (e.addr = 0x101)) = none ∧ freeCount (full false) = 0 ∧
    queuedCount (full false) = 0 ∧ ((full false).win[0]).freeze = .opened ∧ portFree (full false) = true ∧
    cutOffAddr (full false).win 0x101 = false ∧
    ((withWin 0 .output .zero .frozen (full false)).win[0]).freeze = .frozen ∧
    treatment (withWin 0 .output .zero .frozen (full false)) (wr 0x101 0) = .staged 0 := by decide +kernel

/-- Four records, the head's work ended, and a mark stalled behind them, the sampler in this state. -/
def fourRecords (w : Sampler) : State :=
  (waiting .markStall (wr 0x3FF 0) scanning).setRelease ⟨record [] .marking :: List.replicate 3 (record [] .queued), none, true⟩
    |>.setSampler w

/-- The retirement that releases a stalled mark takes its boundary with it, so that a SAFE entry that follows finds the record it
appended (R94, R24). -/
theorem test_retirement_takes_the_stalled_boundary :
    holds .retirement (fourRecords State.reset.sampler) (fun t => decide (t.release.queue.length = 4) && decide (t.ctl.number = 1) &&
      decide (t.cp = .outstanding ⟨wr 0x3FF 0, .mark, .service .pass, true⟩)) = true ∧
    holds (.safe .broadcast 0) (after .retirement (fourRecords State.reset.sampler)) (fun t =>
      decide (t.release.queue = []) && decide (t.ctl.number = 1) && decide (t.ctl.mode = .safe)) = true ∧
    after .markStallEnd (after .retirement (fourRecords State.reset.sampler)) = after .retirement (fourRecords State.reset.sampler) := by
  decide

theorem witness_StallsAndAccessEnd :
    ((fourRecords State.reset.sampler).cp = .outstanding ⟨wr 0x3FF 0, .mark, .markStall, false⟩ ∧
      (fourRecords State.reset.sampler).release.retireDue = true ∧ (fourRecords State.reset.sampler).release.queue ≠ []) ∧
    ((waiting .markStall (wr 0x3FF 0) scanning).cp = .outstanding ⟨wr 0x3FF 0, .mark, .markStall, false⟩ ∧ scanning.ctl.mode = .run ∧
      scanning.release.queue.length < 4 ∧ scanning.sampler.state ≠ .walking ∧ scanning.release.retireDue = false ∧
      (scanning.setSampler ⟨.walking, some (1, 0), [1], false⟩).sampler.state = .walking) ∧
    ((waiting .poolStall (wr 0x101 0) running).cp = .outstanding ⟨wr 0x101 0, .output 0, .poolStall, false⟩ ∧
      0 < freeCount (waiting .poolStall (wr 0x101 0) running) ∧ running.ctl.mode = .run ∧ running.pool.openStage = []) ∧
    (endingStalled.cp = .outstanding ⟨wr 0x100 0, .output 0, .endingStall, false⟩ ∧ endingStalled.ctl.mode = .ending ∧
      endingStalled.release.retireDue = true ∧ endingStalled.release.queue.length = 1) ∧
    (waiting .endingStall (wr 0x100 0) (twoWin .idle .opened)).cp = .outstanding ⟨wr 0x100 0, .output 0, .endingStall, false⟩ ∧
    (State.reset.setCp (.ended true false 0)).cp = .ended true false 0 ∧ State.reset.cp = .idle := by decide

/-- An access taken in IDLE keeps its class: a window committed over its address before START, or a mark enabled there, does not
change what it is (R11, log 30). -/
theorem test_class_is_kept :
    let s := waiting (.service .pass) (wr 0x100 9) State.reset
    holds (.start 0) (((withWin 0 .output .zero .opened s).setMark ⟨0x100, true⟩).setTiming { State.reset.timing with wdPeriod := 1 })
      (fun t => decide (t.ctl.mode = .armed) && decide (t.cp = .outstanding ⟨wr 0x100 9, .plain, .service .pass, false⟩)) = true ∧
    holds (.start 0) ((waiting (.service .pass) (wr 0x3FF 9) (marked (twoWin .idle .opened))).setTiming
      { State.reset.timing with wdPeriod := 1 }) (fun t => decide (t.ctl.mode = .run) && t.ctl.first) = true := by decide

theorem witness_WaitingAccessRoutedAnew :
    (∀ w ∈ [Wait.begun, .shared, .held, .afterDiscard], w.movable = false) ∧
    (∀ w ∈ [Wait.service .pass, .poolStall, .markStall, .endingStall], w.movable = true) ∧
    (∀ m ∈ [Mode.idle, .armed, .run, .ending, .safe], ∀ f ∈ [Freeze.opened, .frozen], (twoWin m f).ctl.mode = m ∧
      ((twoWin m f).win[0]).freeze = f ∧ ((twoWin m f).win[1]).freeze = f ∧ classify (twoWin m f) (wr 0x100 0) = .output 0 ∧
      classify (twoWin m f) (rd 0x203) = .input 1) ∧
    (∃ m : Mode, m ≠ .idle) ∧ classify (marked (twoWin .armed .opened)) (wr 0x3FF 0) = .mark := by
  refine ⟨by decide, by decide, by decide, ⟨.run, by decide⟩, by decide⟩

theorem witness_MarksTaken : (CpOpen (marked (inMode .armed)) ∧ treatment (marked (inMode .armed)) (wr 0x3FF 0) = .firstMark ∧
      (marked (inMode .armed)).image.wf) ∧
    (CpOpen scanning ∧ treatment scanning (wr 0x3FF 0) = .boundary ∧ scanning.release.queue = [] ∧ scanning.sampler.state ≠ .walking) ∧
    (treatment (queued (List.replicate 3 (record [] .queued)) scanning) (wr 0x3FF 0) = .boundary ∧
      (queued (List.replicate 3 (record [] .queued)) scanning).release.queue.length < 4 ∧
      (queued (List.replicate 3 (record [] .queued)) scanning).release.queue ≠ []) ∧
    (treatment (queued (List.replicate 4 (record [] .queued)) scanning) (wr 0x3FF 0) = .boundary ∧
      4 ≤ (queued (List.replicate 4 (record [] .queued)) scanning).release.queue.length) := by decide

/-- A walk begins at the first word of its set, and is finished at once where the set has none; it moves on past a FRESH word, and from
its last word it finishes (R75, R76, R78). -/
theorem test_walk_comes_to :
    (firstMark (marked (twoWin .armed .opened))).sampler = ⟨.walking, some (1, 0), [1], false⟩ ∧
    (firstMark (marked (inMode .armed))).sampler = ⟨.finished, none, [], true⟩ ∧
    (boundary scanning).sampler = ⟨.walking, some (1, 0), [1], false⟩ ∧
    (walkOn ((running.setImage (running.image.mark 5 (Marks.sampled true))).setSampler ⟨.walking, some (1, 0), [1], false⟩)).sampler =
      ⟨.walking, some (1, 2), [1], false⟩ ∧
    (walkOn (running.setSampler ⟨.walking, some (1, 3), [1], false⟩)).sampler = ⟨.finished, none, [1], true⟩ := by decide

theorem witness_BoundaryActs : scanning.ctl.stopPending = false ∧ (after (.stop 0) scanning).ctl.stopPending = true ∧
    scanning.timing.prescaleCount + 1 = scanning.timing.prescale ∧
    (after (.prescaleWrite 128) scanning).timing.prescaleCount + 1 ≠ (after (.prescaleWrite 128) scanning).timing.prescale := by decide

theorem witness_BoundaryFormsRecord : (queued [record [] .marking] scanning).release.queue ≠ [] ∧
    ∀ p n h, (queued [record [] .marking] scanning).mp = some p → p.owner ≠ .entry n h :=
  ⟨by decide, fun _ _ _ h => nomatch h⟩

/-- A mark meets a record whose one entry is on the Memory Port, in a window that is freezing. -/
def purging (marker : Bool) : State :=
  (flying (.entry 0 .queued) (wr 0x100 0) (queued [record [entry0] .writing]
    (scanning.setWin (setFreezeState scanning.win 0 .freezePending)))).setMarker ⟨0x3FE, marker⟩

/-- The purge leaves the record nothing to write: it goes on, and with the marker disabled its retirement is due, while the entry stays
counted until its write has ended (R53, R90, R94). -/
theorem test_purge_of_an_entry_in_flight :
    ((boundary (purging true)).release.queue.map (·.stage)) = [.marking, .queued] ∧
    (boundary (purging true)).release.retireDue = false ∧ (boundary (purging false)).release.retireDue = true ∧
    queuedCount (boundary (purging false)) = 1 ∧
    queuedCount (after .retirement (boundary (purging false))) = 1 ∧
    (after .retirement (boundary (purging false))).release.queue.length = 1 := by decide

/-- The hypotheses of the clause on the head: an empty queue, and an entry in flight that the purge has reached or now reaches. -/
theorem witness_BoundaryFormsRecord_head : scanning.release.queue = [] ∧
    (∃ p n, (purging true).mp = some p ∧ p.owner = .entry n .queued ∧ ((purging true).win[n]).freeze = .freezePending) ∧
    ∃ p n, (flying (.entry 0 .purged) (wr 0x100 0) scanning).mp = some p ∧ p.owner = .entry n .purged :=
  ⟨by decide, ⟨_, 0, rfl, rfl, by decide⟩, ⟨_, 0, rfl, rfl⟩⟩

theorem witness_BoundaryCommits : running.image.wf ∧ imageWord running.win .output 0 0x103 = some 3 ∧
    (merged .opened).image.wf ∧ (purging true).image.wf ∧ entry0 ∈ (record [entry0] .writing).entries ∧
    record [entry0] .writing ∈ (purging true).release.queue ∧ ((purging true).win[0]).freeze = .freezePending ∧
    imageWord (purging true).win .output 0 entry0.addr = some 0 ∧ entry0.mask[3] = true ∧
    (purging true).mp = some ⟨0x100, true, 0b1111, 0, .entry 0 .queued⟩ := by decide

/-- The release engine draws on this record alone. -/
def draining (r : BatchRecord) : State := queued [r] running

/-- A safe fill of window 0 from its safe slice. -/
def patterned : State :=
  let s := withWin 0 .output .pattern .opened running
  after (.safe .broadcast 0) (s.setImage (s.image.writeLanes 0x100 0b1111 0x55667788))

/-- A reissue of windows 0 to 2, the first OPEN, the second cut off, the third OPEN and not valid but for its last word. -/
def reissued : State :=
  let s := withWin 2 .output .zero .opened (withWin 1 .output .zero .frozen (merged .opened))
  s.setImage ((s.image.mark 4 (Marks.settle 0b0011)).mark 11 (Marks.settle 1))

/-- The reissue takes an OPEN window's next valid word, passes a FROZEN one with owed on its valid bytes, and goes past the last window to
its end (R146 to R148). -/
theorem test_reissue_comes_to :
    ((reissueFrom 0 0 reissued).reissue.position = some (0, 0) ∧ ((reissueFrom 0 0 reissued).image.marksAt 4).owed = 0) ∧
    ((reissueFrom 0 1 reissued).reissue.position = some (2, 3) ∧ ((reissueFrom 0 1 reissued).image.marksAt 4).owed = 0b0011) ∧
    ((reissueFrom 2 4 reissued).reissue.position = none ∧ (reissueFrom 2 4 reissued).reissue.phase = .due ∧
      (reissueFrom 2 4 (reissued.setMarker ⟨0, true⟩)).reissue.phase = .marker) := by decide

theorem witness_GrantsBeginAccesses :
    (running.lines.resetHeld = false ∧ running.mp = none ∧
      (waiting (.service .pass) (rd 0x3FF) running).cp = .outstanding ⟨rd 0x3FF, .plain, .service .pass, false⟩ ∧
      ∀ n : WinIdx, (running.win[n]).covers 0x3FF = true → (running.win[n]).freeze.cutOff = false) ∧
    (controllerWaiting (draining (record [entry0] .writing)) = false ∧ samplerRequest (draining (record [entry0] .writing)) ≠ .waiting ∧
      (draining (record [entry0] .writing)).release.retireDue = false ∧ cutOffAddr running.win 0x100 = false) ∧
    ((after (.safe .broadcast 0) running).fill.list = [0] ∧ (after (.safe .broadcast 0) running).fill.phase = .words ∧
      (after (.safe .broadcast 0) running).fill.active = true ∧ samplerRequest (after (.safe .broadcast 0) running) ≠ .waiting ∧
      controllerWaiting (after (.safe .broadcast 0) running) = false ∧
      cutOffAddr (after (.safe .broadcast 0) running).win 0x100 = false) ∧
    ((patterned.win[0]).record.policy = .pattern ∧ patterned.fill.list = [0] ∧ patterned.fill.active = true ∧
      patterned.fill.phase = .words ∧ samplerRequest patterned ≠ .waiting ∧ controllerWaiting patterned = false ∧
      cutOffAddr patterned.win 0x100 = false ∧ holds (.memoryPortGrant ⟨false, false⟩) patterned (fun t =>
        decide (t.mp = some ⟨0x100, true, 0b1111, 0x55667788, .fillWord 0 true⟩)) = true) ∧
    ((draining (record [] .marking)).release.queue = [record [] .marking] ∧ cutOffAddr running.win running.marker.addr = false) ∧
    (inMode .safe (State.reset.setFill ⟨[], 0, true, .marker⟩)).fill.phase = .marker ∧
    ((inMode .safe (State.reset.setReissue ⟨true, none, .marker, .reissue⟩)).reissue.resuming = true ∧
      (inMode .safe (State.reset.setReissue ⟨true, none, .marker, .reissue⟩)).fill.active = false) := by decide

/-- The walk stands at this word of window 1. -/
def walking (off : Nat) (s : State) : State := s.setSampler ⟨.walking, some (1, off), [1], false⟩

/-- The reissue stands at the first word of window 0. -/
def reissuing (s : State) : State := inMode .safe (s.setReissue ⟨true, some (0, 0), .words, .reissue⟩)

/-- Word 103H of window 0 owes a byte, and the head record is to flush that window from this place. -/
def flushing (off : Nat) : State :=
  (running.setImage (running.image.mark 3 (Marks.owe 1))).setRelease
    ⟨[⟨7, [], [0], false, false, true, .flushing⟩], some (0, off), false⟩

theorem witness_ServiceAndWordGrants :
    (∀ k ∈ [Service.passImage, .torn, .merged], (waiting (.service k) (wr 0x103 1) running).cp =
      .outstanding ⟨wr 0x103 1, .output 0, .service k, false⟩) ∧
    ((waiting (.service .fetch) (rd 0x203) running).cp = .outstanding ⟨rd 0x203, .input 1, .service .fetch, false⟩ ∧
      cutOffAddr running.win 0x103 = false ∧ cutOffAddr running.win 0x203 = false) ∧
    ((gather running 0 0x103).2 = 0b1111 ∧ (gather (merged .opened) 0 0x100).2 = 0) ∧
    (controllerWaiting (walking 0 running) = false ∧ releaseWaiting (walking 0 running) = false ∧ (running.image.marksAt 4).fresh = false ∧
      (freshWord.image.marksAt 4).fresh = true ∧ cutOffAddr running.win 0x200 = false ∧ cutOffAddr (twoWin .run .frozen).win 0x200 = true) ∧
    (samplerRequest (flushing 3) ≠ .waiting ∧ controllerWaiting (flushing 3) = false ∧ ((flushing 3).image.marksAt 3).owed = 1 ∧
      ((flushing 2).image.marksAt 2).owed = 0 ∧ cutOffAddr (flushing 3).win 0x103 = false) ∧
    (samplerRequest (reissuing (merged .opened)) ≠ .waiting ∧ controllerWaiting (reissuing (merged .opened)) = false ∧
      (reissuing (merged .opened)).fill.active = false ∧ ((reissuing (merged .opened)).image.marksAt 0).valid = 0b1111 ∧
      ((reissuing running).image.marksAt 0).valid = 0 ∧ cutOffAddr (reissuing running).win 0x100 = false) := by decide

/-- A fill word of window 0, frozen in SAFE, is to be written, with the window at this place and these windows after it. -/
def frozenFill (off : Nat) (ns : List WinIdx) : State := (twoWin .safe .frozen).setFill ⟨0 :: ns, off, true, .words⟩

/-- The requests that a grant withdraws: of a head record the purge has emptied, of a flush window it has withdrawn, and of a fill word
of a window frozen in SAFE. -/
theorem witness_ServiceAndWordGrants_withdrawn :
    ((draining (record [] .writing)).release.queue = [record [] .writing] ∧ samplerRequest (draining (record [] .writing)) ≠ .waiting ∧
      controllerWaiting (draining (record [] .writing)) = false ∧ (draining (record [] .writing)).release.retireDue = false ∧
      holds (.memoryPortGrant ⟨false, false⟩) (draining (record [] .writing)) (fun t => t.release.retireDue && decide (t.mp = none)) = true) ∧
    (holds (.memoryPortGrant ⟨false, false⟩) ((flushing 3).setRelease ⟨[record [] .flushing], some (0, 3), false⟩) (fun t =>
      t.release.retireDue && decide (t.mp = none) && decide (t.release.flushPos = none)) = true) ∧
    (∀ p ∈ [(0, []), (3, []), (3, [2])], samplerRequest (frozenFill p.1 p.2) ≠ .waiting ∧
      controllerWaiting (frozenFill p.1 p.2) = false ∧ (frozenFill p.1 p.2).release.queue = [] ∧
      cutOffAddr (frozenFill p.1 p.2).win (0x100 + BitVec.ofNat 22 p.1) = true) ∧
    (holds (.memoryPortGrant ⟨false, false⟩) (frozenFill 0 []) (fun t => decide (t.fill.offset = 1)) = true ∧
      holds (.memoryPortGrant ⟨false, false⟩) (frozenFill 3 []) (fun t => decide (t.fill = ⟨[], 0, true, .due⟩)) = true ∧
      holds (.memoryPortGrant ⟨false, false⟩) (frozenFill 3 [2]) (fun t => decide (t.fill = ⟨[2], 0, true, .words⟩)) = true ∧
      (reissuing (frozenFill 3 [])).reissue.resuming = true) := by decide

/-- The sampler's request waits as well. -/
def bothWaiting (b : Background) : State :=
  ((draining (record [entry0] .writing)).setSampler ⟨.walking, some (1, 0), [1], false⟩).setBackground b

theorem witness_GrantOrder : running.lines.resetHeld = false ∧ (flying .pass (rd 0) running).mp ≠ none ∧
    controllerWaiting (waiting (.service .pass) (rd 0) running) = true ∧
    (∀ b ∈ [Background.release, .sampler], controllerWaiting (bothWaiting b) = false ∧ releaseWaiting (bothWaiting b) = true ∧
      samplerRequest (bothWaiting b) = .waiting ∧ (bothWaiting b).background = b ∧ (bothWaiting b).mp = none) ∧
    (releaseWaiting (draining (record [entry0] .writing)) = true ∧ samplerRequest (draining (record [entry0] .writing)) ≠ .waiting) ∧
    (releaseWaiting (running.setSampler ⟨.walking, some (1, 0), [1], false⟩) = false ∧
      samplerRequest (running.setSampler ⟨.walking, some (1, 0), [1], false⟩) = .waiting) ∧
    (releaseWaiting running = false ∧ samplerRequest running ≠ .waiting) := by decide

theorem witness_NoAccessIntoFrozenWindow : (waiting (.service .merged) (rd 0x100) running).mp = none ∧
    (match step ((waiting (.service .merged) (rd 0x100) running).setPending [.memoryPortGrant ⟨false, false⟩]) with
      | .next t => decide (t.mp = some ⟨0x100, false, 0b1111, 0, .merged 0 0b1111⟩)
      | _ => false) = true ∧
    (match step (running.setPending [.controllerAccess (wr 0x200 5) true]) with
      | .next t => decide (t.mp = some ⟨0x200, true, 0b1111, 5, .pass⟩)
      | _ => false) = true ∧
    (running.win[0]).covers 0x100 = true ∧ (running.win[1]).covers 0x200 = true := by decide

theorem witness_ControllerAccessEnds : running.lines.resetHeld = false ∧ running.mp = none ∧
    (flying .pass (rd 0x3FF) (waiting .begun (rd 0x3FF) running)).mp = some ⟨0x3FF, false, 0b1111, 0, .pass⟩ ∧
    (flying (.merged 0xAABB 0b1100) (rd 0x100) (waiting .begun (rd 0x100) running)).mp =
      some ⟨0x100, false, 0b1111, 0, .merged 0xAABB 0b1100⟩ ∧
    (waiting .begun (rd 0x3FF) running).cp = .outstanding ⟨rd 0x3FF, .plain, .begun, false⟩ ∧
    (AccessEnd.acked 1).good = true ∧ (AccessEnd.failed true 1).good = false ∧ AccessEnd.timedOut.good = false := by decide

/-- A RESET command has discarded the access in flight, which the controller's access waits for. -/
def discarded : State := after (.reset .unicast 0x96 0) (flying .pass (wr 0x3FF 9) (waiting .begun (wr 0x3FF 9) running))

theorem witness_ControllerAccessEnds_discarded : discarded.lines.resetHeld = false ∧
    discarded.mp = some ⟨0x3FF, true, 0b1111, 9, .discarded⟩ ∧
    discarded.cp = .outstanding ⟨wr 0x3FF 9, .plain, .afterDiscard, false⟩ ∧ discarded.ctl.mode = .idle ∧
    (after (.reset .unicast 0x96 0) (flying (.entry 0 .queued) (wr 0x100 0) running)).cp = .idle ∧
    (holds .memoryPortTimeout discarded fun t => t.causes.flag .memory && decide (t.mp = none) &&
      decide (t.cp = .outstanding ⟨wr 0x3FF 9, .plain, .service .pass, false⟩)) = true := by decide

/-- A mark write that waited for a discarded access and meets ARMED is the first mark (R174, log 27). -/
theorem test_discarded_end_under_armed :
    holds (.memoryPortAccessEnd ⟨true, false⟩ 0) (inMode .armed (flying .discarded (wr 0x3FF 0)
      (waiting .afterDiscard (wr 0x3FF 0) (marked State.reset)))) (fun t => decide (t.ctl.mode = .run) && t.ctl.first) = true := by decide

theorem witness_WindowWriteEnds : (flying (.passImage 0) (wr 0x103 1) (twoWin .armed .opened)).mp = some ⟨0x103, true, 0b1111, 1, .passImage 0⟩ ∧
    (twoWin .armed .opened).image.wf ∧ imageWord (twoWin .armed .opened).win .output 0 0x103 = some 3 ∧
    (flying (.torn 0) (wr 0x103 1) running).mp = some ⟨0x103, true, 0b1111, 1, .torn 0⟩ := by decide

theorem witness_InputReadEnds : (flying (.fetch 1) (rd 0x203) running).mp = some ⟨0x203, false, 0b1111, 0, .fetch 1⟩ ∧
    running.image.wf ∧ imageWord running.win .input 1 0x203 = some 7 ∧
    (flying (.walkRead 1 true) (rd 0x200) (waiting .shared (rd 0x200) running)).cp = .outstanding ⟨rd 0x200, .input 1, .shared, false⟩ ∧
    (∀ off ∈ [0, 3], OrderInv (walking off running) ∧ (walking off running).sampler.position = some (1, off)) ∧
    (∀ stale, (flying (.walkRead 1 stale) (rd 0x200) (walking 0 running)).mp = some ⟨0x200, false, 0b1111, 0, .walkRead 1 stale⟩) ∧
    (AccessEnd.goesOn (.acked 0) (walking 0 running) ∧ ¬AccessEnd.goesOn .timedOut (walking 0 running)) := by decide

/-- The head record has these entries, and the write of its first is in flight. -/
def writing (es : List Entry) (hold : EntryHold) : State :=
  flying (.entry 0 hold) (wr 0x100 0x11223344) (draining (record es .writing))

theorem witness_EntryWriteEnds :
    (∀ h ∈ [EntryHold.queued, .purged, .dropped], (writing [entry0] h).mp = some ⟨0x100, true, 0b1111, 0x11223344, .entry 0 h⟩) ∧
    running.image.wf ∧ imageWord running.win .output 0 0x100 = some 0 ∧ running.causes.actionSafe .stageLow = false ∧
    (writing [entry0, { entry0 with addr := 0x101 }] .queued).release.queue = [record [entry0, { entry0 with addr := 0x101 }] .writing] ∧
    (writing [entry0] .queued).release.queue = [record [entry0] .writing] ∧
    (AccessEnd.goesOn (.acked 0) (writing [entry0] .queued) ∧ ¬AccessEnd.goesOn (.failed false 0) (writing [entry0] .queued) ∧
      AccessEnd.goesOn (.failed false 0) ((writing [entry0] .queued).setCauses { running.causes with actions := 0 }) ∧
      ¬AccessEnd.goesOn .timedOut (writing [entry0] .purged)) := by decide

theorem witness_ReleaseWritesEnd :
    (∀ w, (flying (.flushWord 0 w) (wr 0x103 0) (flushing 3)).mp = some ⟨0x103, true, 0b1111, 0, .flushWord 0 w⟩) ∧
    ((flushing 3).image.wf ∧ imageWord (flushing 3).win .output 0 0x103 = some 3 ∧ (flushing 3).release.flushPos = some (0, 3)) ∧
    (∀ l, (flying (.fillWord 0 l) (wr 0x100 0) patterned).mp = some ⟨0x100, true, 0b1111, 0, .fillWord 0 l⟩) ∧
    (patterned.image.wf ∧ imageWord patterned.win .output 0 0x100 = some 0 ∧ patterned.fill.list = [0] ∧
      patterned.fill.offset + 1 < (patterned.win[0]).words ∧ patterned.reissue.resuming = false) ∧
    ((patterned.win[0]).words ≤ (patterned.setFill { patterned.fill with offset := 3 }).fill.offset + 1 ∧
      (patterned.setFill { patterned.fill with list := [0, 2] }).fill.list = 0 :: [2] ∧
      (reissuing patterned).reissue.resuming = true) ∧
    (∀ l, (flying (.reissueWord 0 l) (wr 0x100 0) (reissuing running)).mp = some ⟨0x100, true, 0b1111, 0, .reissueWord 0 l⟩) ∧
    ((reissuing running).reissue.position = some (0, 0) ∧ (reissuing running).reissue.phase = .words ∧
      (reissuing running).fill.active = false ∧ (reissuing patterned).fill.active = true) := by decide

theorem witness_ReleaseWritesEnd_markers :
    (∀ l, (flying (.batchMarker l) (wr 0 0) running).mp = some ⟨0, true, 0b1111, 0, .batchMarker l⟩ ∧
      (flying (.safeMarker l) (wr 0 0) running).mp = some ⟨0, true, 0b1111, 0, .safeMarker l⟩ ∧
      (flying (.reissueMarker l) (wr 0 0) running).mp = some ⟨0, true, 0b1111, 0, .reissueMarker l⟩) ∧
    (AccessEnd.goesOn .timedOut patterned ∧ ¬AccessEnd.goesOn .timedOut (reissuing running) ∧
      AccessEnd.goesOn (.acked 0) (reissuing running) ∧ ¬AccessEnd.goesOn (.failed true 0) (flushing 3)) := by decide

theorem witness_StepTakesFront : (State.reset.setPending [.stateRead]).pending = .stateRead :: [] ∧ State.reset.pending = [] := by decide

theorem witness_ItemsLaidOut : State.reset.causes.priority[0]? = some .wdog ∧ State.reset.causes.priority[8]? = some .link ∧
    (0x03#8).toNat < 0x80 ∧ (0x7F#8).toNat < 0x80 ∧ 0x9F < (0xA0#8).toNat ∧ 0x9F < (0xFF#8).toNat := by decide

theorem witness_HeadWorksAndRetires :
    ((draining (record [entry0] .queued)).release.queue = [record [entry0] .queued] ∧ (record [entry0] .queued).entries ≠ []) ∧
    ((record [] .queued).entries = [] ∧ (record [] .queued).flushSet = [] ∧ running.marker.enabled = false ∧
      (running.setMarker ⟨0, true⟩).marker.enabled = true) ∧
    ((flushing 0).release.flushPos = some (0, 0) ∧ 3 < ((flushing 0).win[0]).words ∧ ((flushing 0).image.marksAt 3).owed ≠ 0 ∧
      ∀ j < 3, ((flushing 0).image.marksAt (((flushing 0).win[0]).imageAt j)).owed = 0) ∧
    ((settleHead (flushing 4)).release.flushPos = none ∧ (settleHead (flushing 4)).release.retireDue = true ∧
      (settleHead ((flushing 4).setMarker ⟨0, true⟩)).release.queue = [⟨7, [], [], false, false, true, .marking⟩] ∧
      (settleHead ((flushing 0).setRelease ⟨[⟨7, [], [2, 0], false, false, true, .queued⟩], none, false⟩)).release =
        ⟨[⟨7, [], [0], false, false, true, .flushing⟩], some (0, 3), false⟩) ∧
    ((inMode .ending (State.reset.setRelease ⟨[record [] .marking], none, true⟩)).release.retireDue = true ∧
      (inMode .ending (State.reset.setRelease ⟨[record [] .marking], none, true⟩)).cp = .idle) ∧
    ((fourRecords State.reset.sampler).release.queue = record [] .marking :: List.replicate 3 (record [] .queued) ∧
      (List.replicate 3 (record [] .queued)).length < 4 ∧ (fourRecords State.reset.sampler).release.retireDue = true ∧
      (fourRecords State.reset.sampler).cp = .outstanding ⟨wr 0x3FF 0, .mark, .markStall, false⟩ ∧
      (fourRecords State.reset.sampler).ctl.mode = .run ∧ (fourRecords State.reset.sampler).sampler.state ≠ .walking ∧
      (fourRecords ⟨.walking, some (1, 0), [1], false⟩).sampler.state = .walking) ∧
    (holds .retirement (fourRecords State.reset.sampler |>.setCp .idle) (fun t => decide (t.release.queue.length = 3)) = true ∧
      (fourRecords State.reset.sampler |>.setCp .idle).release.queue.tail ≠ []) ∧
    ((waiting (.service .pass) (rd 0x3FF) (fourRecords State.reset.sampler)).cp =
      .outstanding ⟨rd 0x3FF, .plain, .service .pass, false⟩) ∧
    (endingStalled.cp = .outstanding ⟨wr 0x100 0, .output 0, .endingStall, false⟩ ∧ endingStalled.release.queue.tail = []) := by decide

theorem witness_SafeWorkCompletes : (State.reset.setFill ⟨[], 0, true, .due⟩).fill.phase = .due ∧
    (State.reset.setFill ⟨[0], 0, true, .due⟩).fill.list ≠ [] ∧
    ((flushing 0).image.wf ∧ owedOpenOutputs (flushing 0).win (flushing 0).image = [0]) ∧
    ((State.reset.setReissue ⟨true, none, .due, .reissue⟩).reissue.phase = .due ∧ State.reset.fill.active = false ∧
      State.reset.cp = .idle) := by decide

end Sys2Proof.Machine.Tests
end

