-- ==== Sys2Proof/Proofs/Start.lean ====
section
/-! PROOF. START: each of its tests in terms of the state, what it does when taken, and the broadcast that carries its code (R18, R19,
R165). -/

namespace Sys2Proof.Machine

theorem exec_start_of_attending {s : State} (h : Attending s) (argument : Word) :
    exec (.start argument) s = .next (takeStart s) :=
  congrArg Host.Outcome.next (guarded_of_attending h takeStart)

theorem someDefined_iff (ws : Windows) : someDefined ws = true ↔ ∃ n : WinIdx, (ws[n]).defined = true := by
  simp [someDefined, List.any_eq_true, mem_allWin]

theorem someDefined_eq_false_iff (ws : Windows) : someDefined ws = false ↔ ∀ n : WinIdx, (ws[n]).defined = false := by
  simp [someDefined, List.any_eq_false, mem_allWin]

/-! ## The tests in their order (R18) -/

section
variable {s : State}

theorem takeStart_of_mode (hm : s.ctl.mode ≠ .idle) : takeStart s = refuse .mode s := by
  simp [takeStart, hm]

theorem takeStart_of_undefined (hm : s.ctl.mode = .idle) (hd : someDefined s.win = false) :
    takeStart s = refuse .argument s := by
  simp [takeStart, hm, hd]

theorem takeStart_of_no_period (hm : s.ctl.mode = .idle) (hd : someDefined s.win = true) (hp : s.timing.wdPeriod = 0) :
    takeStart s = refuse .range s := by
  simp [takeStart, hm, hd, hp]

theorem takeStart_of_no_mark (hm : s.ctl.mode = .idle) (hd : someDefined s.win = true) (hp : s.timing.wdPeriod ≠ 0)
    (hk : s.mark.enabled = false) : takeStart s = refuse .mark s := by
  simp only [takeStart, hm, hd, hp, hk, ne_eq, not_true_eq_false, Bool.not_true, Bool.not_false,
    Bool.false_eq_true, if_false, if_true]

theorem takeStart_taken (hm : s.ctl.mode = .idle) (hd : someDefined s.win = true) (hp : s.timing.wdPeriod ≠ 0)
    (hk : s.mark.enabled = true) : takeStart s = ackReply (reroute s (startRun s)) := by
  simp only [takeStart, hm, hd, hp, hk, ne_eq, not_true_eq_false, Bool.not_true,
    Bool.false_eq_true, if_false]

end

/-! ## START taken (R19) -/

@[simp] theorem startRun_cp (s : State) : (startRun s).cp = s.cp := rfl

/-- With no access at the Controller Port there is nothing to route anew, and START leaves its effects and its reply alone. -/
theorem ackReply_reroute_startRun_of_idle {s : State} (h : s.cp = .idle) :
    ackReply (reroute s (startRun s)) = (startRun s).setMg (s.mg.replied .ack 0) := by
  have hn : ∀ o, (startRun s).cp ≠ .outstanding o := by simp [h]
  rw [reroute_of_not_outstanding hn]
  rfl

/-! ## A broadcast that may not be broadcast (R165) -/

/-- A broadcast of the right length and free of frame errors is given to the broadcast commands. -/
theorem exec_frameEnd_broadcast {f : Frame} {straps : BitVec 3} {s : State} (hr : s.lines.resetHeld = false)
    (hf : s.mg.frame = .none) (hl : f.edges = 56) (ht : f.bytes.target = 7) (he : f.bytes.inError = false) :
    exec (.frameEnd f straps) s = .next (actOnBroadcast f.bytes straps s) := by
  have hb : f.bytes.isBroadcast = true := decide_eq_true ht
  have hend : endFrame f straps s = actOnBroadcast f.bytes straps s := by
    simp [endFrame, endBroadcast, hf, hl, hb, he]
  change Host.Outcome.next (unlessReset (endFrame f straps) s) = _
  simp [unlessReset, hr, hend]

/-- A broadcast that carries neither SAFE nor RESET latches LINK and has no other effect. -/
theorem actOnBroadcast_of_other {b : RequestBytes} (straps : BitVec 3) (s : State) (hs : b.number ≠ 0x04)
    (hr : b.number ≠ 0x0A) : actOnBroadcast b straps s = closeFrame (latch .link s) := by
  simp only [actOnBroadcast, hs, hr, and_false, if_false]

theorem inError_eq_false_of_command {b : RequestBytes} (hc : b.check = b.expected) (ho : b.operation = 2) :
    b.inError = false := by
  simp [RequestBytes.inError, hc, ho]

/-! ## The obligation -/

/-- Settles O26: a command in flight and a broadcast are answered before START's rule is reached; otherwise its tests decide in their
order, and past them START has its effects. -/
theorem startResult : Obligations.StartResult := by
  intro argument s
  refine ⟨fun hl hc => ?busy, fun f straps hr hf hl ht hc ho hn => ?broadcast, fun ha => ?_⟩
  case busy => exact congrArg Host.Outcome.next (guarded_in_flight hl hc takeStart)
  case broadcast =>
    have he := inError_eq_false_of_command hc ho
    rw [exec_frameEnd_broadcast hr hf hl ht he, actOnBroadcast_of_other straps s (by simp [hn]) (by simp [hn])]
  rw [exec_start_of_attending ha]
  refine ⟨fun hm => ?mode, fun hm hd => ?argument, fun hm hd hp => ?range, fun hm hd hp hk => ?mark,
    fun hm hd hp hk => ?taken⟩
  case mode => rw [takeStart_of_mode hm]; rfl
  case argument => rw [takeStart_of_undefined hm ((someDefined_eq_false_iff s.win).2 hd)]; rfl
  case range => rw [takeStart_of_no_period hm ((someDefined_iff s.win).2 hd) hp]; rfl
  case mark => rw [takeStart_of_no_mark hm ((someDefined_iff s.win).2 hd) hp hk]; rfl
  case taken =>
    rw [takeStart_taken hm ((someDefined_iff s.win).2 hd) hp hk]
    exact ⟨rfl, fun hcp => congrArg Host.Outcome.next (ackReply_reroute_startRun_of_idle hcp)⟩

end Sys2Proof.Machine
end

