-- ==== Sys2Proof/Proofs/StagedWrite.lean ====
section
/-! PROOF. A staged write at its taking: how it is routed to the staging pool, and what each of the cases of Table 3-2 that ends or stalls
it leaves behind (R38 to R41). -/

namespace Sys2Proof.Machine

/-! ## An access at its taking -/

/-- An open Controller Port routes the access by its class as it stands (R11, R12). -/
theorem exec_controllerAccess_of_open {s : State} (h : CpOpen s) (a : Access) (g : Bool) :
    exec (.controllerAccess a g) s = .next (followLevel .stageLow (route g ⟨a, classify s a, .held, false⟩ s)) := by
  obtain ⟨hr, hc⟩ := h
  have ht : takeAccess g a s = followLevel .stageLow (route g ⟨a, classify s a, .held, false⟩ s) := by
    simp only [takeAccess, hc, hr, Bool.false_eq_true, if_false]
  exact congrArg Host.Outcome.next ht

/-- No mark write is staged. -/
theorem markTreatment_ne_staged (m : Mode) (n : WinIdx) : markTreatment m ≠ .staged n := by
  cases m <;> simp [markTreatment]

/-- No access to an input window is staged. -/
theorem inputTreatment_ne_staged (m : Mode) (i n : WinIdx) (write cut : Bool) : inputTreatment m i write cut ≠ .staged n := by
  unfold inputTreatment
  split <;> simp

/-- An access to an output window is staged under that window's number alone. -/
theorem eq_of_outputTreatment_staged {m : Mode} {i n : WinIdx} {write cut : Bool}
    (h : outputTreatment m i write cut = .staged n) : i = n := by
  unfold outputTreatment at h
  split at h <;> simp_all

/-- Only an access to output window `n` is a staged write of window `n`. -/
theorem cls_eq_output_of_staged {s : State} {c : AccessClass} {a : Access} {n : WinIdx} (h : treatmentOf s c a = .staged n) :
    c = .output n := by
  cases c with
  | plain => simp [treatmentOf] at h
  | mark => exact absurd h (markTreatment_ne_staged _ _)
  | input i =>
    simp only [treatmentOf] at h
    split at h
    · simp at h
    · exact absurd h (inputTreatment_ne_staged _ _ _ _ _)
  | output i =>
    simp only [treatmentOf] at h
    split at h
    · simp at h
    · rw [eq_of_outputTreatment_staged h]

/-- A staged write goes to the staging pool as soon as it is taken. -/
theorem exec_controllerAccess_staged {s : State} {a : Access} {n : WinIdx} (ho : CpOpen s) (h : treatment s a = .staged n)
    (g : Bool) : exec (.controllerAccess a g) s =
      .next (followLevel .stageLow (stageWrite g n ⟨a, .output n, .held, false⟩ s)) := by
  have hc : classify s a = .output n := cls_eq_output_of_staged h
  have ht : treatmentOf s (.output n) a = .staged n := hc ▸ h
  have hr : route g ⟨a, .output n, .held, false⟩ s = stageWrite g n ⟨a, .output n, .held, false⟩ s := by
    simp [route, ht]
  rw [exec_controllerAccess_of_open ho, hc, hr]

/-! ## The data of an entry, lane by lane -/

/-- A new entry holds the written lanes, and zero on the others (R35). -/
theorem Entry.lane_data_ofAccess (n : WinIdx) (a : Access) (k : Fin 4) :
    lane k.val (Entry.ofAccess n a).data = if a.enables[k] = true then lane k.val a.data else 0 := by
  have hz : lane k.val 0 = 0 := by simp [lane]
  rw [← hz]
  exact lane_mergeLanes k a.enables a.data 0

/-- Coalescing replaces the written lanes and keeps the others (R39). -/
theorem Entry.lane_data_coalesce (e : Entry) (l : Lanes) (v : Word) (k : Fin 4) :
    lane k.val (e.coalesce l v).data = if l[k] = true then lane k.val v else lane k.val e.data :=
  lane_mergeLanes k l v e.data

/-! ## The one entry of a word -/

section
variable {l₁ l₂ : List Entry} {e : Entry} {a : Addr}

theorem findEntry_isSome_of_mem {l : List Entry} (hm : e ∈ l) (ha : e.addr = a) : (findEntry l a).isSome = true :=
  List.find?_isSome.2 ⟨e, hm, by simp [ha]⟩

/-- A change of the entries of one word leaves every other entry, and every entry's place, as it is. -/
theorem map_entry_of_unique (f : Entry → Entry) (ha : e.addr = a) (hu : ∀ d ∈ l₁ ++ l₂, d.addr ≠ a) :
    (l₁ ++ e :: l₂).map (fun d => if d.addr = a then f d else d) = l₁ ++ f e :: l₂ := by
  have hk : ∀ l : List Entry, (∀ d ∈ l, d ∈ l₁ ++ l₂) → l.map (fun d => if d.addr = a then f d else d) = l :=
    fun l hl => (List.map_congr_left fun d hd => if_neg (hu d (hl d hd))).trans (List.map_id' l)
  rw [List.map_append, List.map_cons, if_pos ha, hk l₁ (fun d => List.mem_append_left l₂),
    hk l₂ (fun d => List.mem_append_right l₁)]

end

/-! ## A staged write by the cases of Table 3-2 -/

section
variable {s : State} {a : Access} {c : AccessClass} {w : Wait} {taken : Bool}

/-- Case 1: the word has an entry, and the write coalesces into it (R39). -/
theorem stageWrite_coalesces (g : Bool) (n : WinIdx) {l₁ l₂ : List Entry} {e : Entry} (hp : s.pool.openStage = l₁ ++ e :: l₂)
    (ha : e.addr = a.addr) (hu : ∀ d ∈ l₁ ++ l₂, d.addr ≠ a.addr) :
    stageWrite g n ⟨a, c, w, taken⟩ s =
      endAccess true 0 (setOpenStage (l₁ ++ e.coalesce a.enables a.data :: l₂) s) := by
  have hm : e ∈ s.pool.openStage := by simp [hp]
  obtain ⟨d, hd⟩ := Option.isSome_iff_exists.1 (findEntry_isSome_of_mem hm ha)
  have hmap := map_entry_of_unique (fun d => d.coalesce a.enables a.data) ha hu
  simp only [stageWrite, hd]
  rw [hp, hmap]

/-- Case 2: the word has no entry and one is free, which joins the open stage at the tail (R40). -/
theorem stageWrite_takes_entry (g : Bool) (n : WinIdx) (hn : findEntry s.pool.openStage a.addr = none)
    (hf : 0 < freeCount s) :
    stageWrite g n ⟨a, c, w, taken⟩ s = endAccess true 0 (setOpenStage (s.pool.openStage ++ [Entry.ofAccess n a]) s) := by
  simp only [stageWrite, hn, hf, if_true]

/-- Case 3: none is free, but one held for the release queue will come free, and the write stalls for it (R41). -/
theorem stageWrite_stalls (g : Bool) (n : WinIdx) (hn : findEntry s.pool.openStage a.addr = none)
    (hf : freeCount s = 0) (hq : 0 < queuedCount s) :
    stageWrite g n ⟨a, c, w, taken⟩ s = waitFor .poolStall ⟨a, c, w, taken⟩ s := by
  simp only [stageWrite, hn, hf, hq, lt_irrefl, if_false, if_true]

end

/-! ## The obligation -/

/-- Settles O42: the write reaches the staging pool at its taking, and there the case is decided by whether its word has an entry and
whether one is free. -/
theorem stagedWriteTaken : Obligations.StagedWriteTaken := by
  refine ⟨fun a g s n ho ht hn => ⟨fun hf => ?takes, fun hf hq => ?stalls⟩,
    fun a g s n l₁ l₂ e ho ht hp ha hu => ?coalesces⟩
  case takes =>
    refine ⟨Entry.ofAccess n a, rfl, rfl, rfl, Entry.lane_data_ofAccess n a, ?_⟩
    rw [exec_controllerAccess_staged ho ht, stageWrite_takes_entry g n hn hf]
    rfl
  case stalls =>
    rw [exec_controllerAccess_staged ho ht, stageWrite_stalls g n hn hf hq]
    rfl
  case coalesces =>
    refine ⟨e.coalesce a.enables a.data, rfl, rfl, rfl, e.lane_data_coalesce a.enables a.data, ?_⟩
    rw [exec_controllerAccess_staged ho ht, stageWrite_coalesces g n hp ha hu]
    rfl

end Sys2Proof.Machine
end

