-- ==== Sys2Proof/Proofs/ChainLines.lean ====
section
/-! PROOF. The chain lines: which causes are of which class, when a cause drives its line, and the terms of FLT-OUT and ALR-OUT (R130,
R132). -/

namespace Sys2Proof.Machine

/-! ## The classes of the causes (Table 8-1) -/

theorem mem_allCauses (c : Cause) : c ∈ allCauses := by
  cases c <;> decide

theorem Cause.mem_faults_iff (c : Cause) : c ∈ [Cause.wdog, .memory, .chain, .torn] ↔ c.isFault = true := by
  cases c <;> decide

theorem Cause.mem_alerts_iff (c : Cause) :
    c ∈ [Cause.overrun, .stageLow, .freezeExpired, .inputWrite, .link, .powerOn] ↔ c.isFault = false := by
  cases c <;> decide

/-! ## A cause that drives its line (R130) -/

section
variable (u : CauseUnit)

theorem CauseUnit.isQuiet_iff (c : Cause) :
    u.isQuiet c = true ↔ u.quietMark.val ≤ u.priority.idxOf c ∧ u.actionSafe c = false := by
  simp [CauseUnit.isQuiet]

theorem CauseUnit.drives_iff (c : Cause) :
    u.drives c = true ↔ u.flag c = true ∧ ¬(u.quietMark.val ≤ u.priority.idxOf c ∧ u.actionSafe c = false) := by
  rw [← u.isQuiet_iff c]
  simp [CauseUnit.drives]

/-- The causes' term of a line: some cause of the line's class drives it. -/
theorem any_allCauses_drives_iff (p : Cause → Bool) :
    (allCauses.any fun c => p c && u.drives c) = true ↔ ∃ c, p c = true ∧ u.drives c = true := by
  simp [List.any_eq_true, mem_allCauses]

end

/-! ## The terms of each line (R132) -/

section
variable (s : State)

theorem fltOut_iff : fltOut s = true ↔ s.lines.fltIn = true ∨ s.causes.forceFault = true ∨
    ∃ c, c.isFault = true ∧ s.causes.drives c = true := by
  simp only [fltOut, Bool.or_eq_true, any_allCauses_drives_iff, or_assoc]

theorem alrOut_iff : alrOut s = true ↔ s.lines.alrIn = true ∨ s.causes.forceAlert = true ∨
    ∃ c, c.isFault = false ∧ s.causes.drives c = true := by
  simp only [alrOut, Bool.or_eq_true, any_allCauses_drives_iff s.causes fun c => !c.isFault, Bool.not_eq_true', or_assoc]

end

/-! ## The obligation -/

/-- Settles O14: each line is its three terms, the class of a cause is its place in the manual's list, and a cause drives its line where
it is set and not quiet. -/
theorem chainLinesDriven : Obligations.ChainLinesDriven := by
  intro s
  refine ⟨(fltOut_iff s).trans ?fault, (alrOut_iff s).trans ?alert⟩
  case fault => simp only [Cause.mem_faults_iff, CauseUnit.drives_iff]
  case alert => simp only [Cause.mem_alerts_iff, CauseUnit.drives_iff]

end Sys2Proof.Machine
end

section
/-! PROOF. The management link: the check byte bit by bit (R163), and UNLOCK by the lock, as a broadcast and by a RESET command (R172,
R173). -/

namespace Sys2Proof.Machine

/-! ## The check byte (R163) -/

/-- The bits of a byte in the order they are sent (R162). -/
abbrev sentBits (v : Byte) : List Bool := [v[7], v[6], v[5], v[4], v[3], v[2], v[1], v[0]]

/-- The check register compares its top bit with the incoming bit, and the generator enters where they differ. -/
theorem crcBit_eq : crcBit = fun (r : Byte) (bit : Bool) => if r[7] = bit then r <<< 1 else (r <<< 1) ^^^ 0x07#8 := by
  funext r bit
  rw [crcBit, BitVec.msb_eq_getLsbD_last, ← BitVec.getLsbD_eq_getElem]

theorem crcByte_eq_foldl_sentBits : crcByte = fun r v => (sentBits v).foldl crcBit r := rfl

/-- A check byte taken byte by byte is one taken over all the bits as they are sent. -/
theorem checkByte_eq_foldl_bits (l : List Byte) : checkByte l = (l.flatMap sentBits).foldl crcBit 0 := by
  rw [checkByte, crcByte_eq_foldl_sentBits, List.foldl_flatMap]

/-- With a defined operation code the check byte alone decides whether the request phase shows a frame error (R164). -/
theorem inError_eq_false_iff_of_operation {b : RequestBytes} (h : b.operation ≠ 3) :
    b.inError = false ↔ b.check = b.expected := by
  simp only [RequestBytes.inError, decide_eq_false h, Bool.or_false, decide_eq_false_iff_not, not_not]

/-- The last byte of a reply is the check byte of the five before it. -/
theorem Reply.bytes_last (r : Reply) : r.bytes[5]? = some (checkByte (r.bytes.take 5)) := rfl

/-- The value the generator has for the digits 1 to 9. -/
theorem checkByte_digits : checkByte [0x31, 0x32, 0x33, 0x34, 0x35, 0x36, 0x37, 0x38, 0x39] = 0xF4 := by
  simp [checkByte, crcByte, crcBit, BitVec.msb_eq_getLsbD_last]

/-- Settles O19: the register's step is the model's `crcBit`, and a check byte is that step folded over the bits sent. -/
theorem checkByteComputed : Obligations.CheckByteComputed := by
  unfold Obligations.CheckByteComputed
  rw [← crcBit_eq]
  refine ⟨fun b => ?request, fun b h => inError_eq_false_iff_of_operation h, fun r => ?reply, checkByte_digits⟩
  case request => exact checkByte_eq_foldl_bits _
  case reply => exact r.bytes_last

/-! ## UNLOCK (R172) -/

theorem exec_unlock_of_attending {s : State} (h : Attending s) (argument : Word) :
    exec (.unlock argument) s = .next (takeUnlock argument s) :=
  congrArg Host.Outcome.next (guarded_of_attending h (takeUnlock argument))

section
variable {s : State} {v : Word}

theorem takeUnlock_of_code (hl : s.mg.locked = true) (hv : v = s.mg.lockCode) :
    takeUnlock v s = ackReply (s.setMg { s.mg with locked := false, lockCode := 0 }) := by
  simp [takeUnlock, hl, hv]

theorem takeUnlock_of_other (hl : s.mg.locked = true) (hv : v ≠ s.mg.lockCode) : takeUnlock v s = refuse .locked s := by
  simp [takeUnlock, hl, hv]

theorem takeUnlock_of_unlocked (hl : s.mg.locked = false) : takeUnlock v s = ackReply s := by
  simp [takeUnlock, hl]

end

/-! ## A RESET command with its argument (R173) -/

theorem exec_reset_unicast_taken {s : State} (h : Listening s) (straps : BitVec 3) :
    exec (.reset .unicast 0x96 straps) s = .next (ackReply (resetTaken straps s)) :=
  congrArg Host.Outcome.next (request_of_listening h (takeReset 0x96 straps))

/-- Settles O25: a command in flight and a broadcast are answered before UNLOCK's rule is reached; otherwise the lock and its code
decide, and a RESET command, which tests neither, leaves every setting as a reset does. -/
theorem unlockResult : Obligations.UnlockResult := by
  intro argument s
  refine ⟨fun hl hc => ?busy, fun ha hl hv => ?code, fun ha hl hv => ?other, fun ha hl => ?unlocked,
    fun f straps hr hf he ht hc ho hn => ?broadcast, fun straps hl => ?reset⟩
  case busy => exact congrArg Host.Outcome.next (guarded_in_flight hl hc (takeUnlock argument))
  case code => rw [exec_unlock_of_attending ha, takeUnlock_of_code hl hv]; rfl
  case other => rw [exec_unlock_of_attending ha, takeUnlock_of_other hl hv]; rfl
  case unlocked => rw [exec_unlock_of_attending ha, takeUnlock_of_unlocked hl]; rfl
  case broadcast =>
    have hg := inError_eq_false_of_command hc ho
    rw [exec_frameEnd_broadcast hr hf he ht hg, actOnBroadcast_of_other straps s (by simp [hn]) (by simp [hn])]
  case reset =>
    exact ⟨ackReply (resetTaken straps s), exec_reset_unicast_taken hl straps, rfl, rfl, rfl, rfl, rfl, rfl, rfl, rfl, rfl, rfl⟩

end Sys2Proof.Machine
end

section
/-! PROOF. What a step can do, once for every invariant: the command at the front of the queue, the body of a request that is taken, what
a write of an item leaves and what a command of the link leaves (R166, Table 11-3, Table 11-4). -/

namespace Sys2Proof.Machine

/-! ## A step and its command -/

/-- The state a command answers. -/
def effect (c : Instr) (s : State) : State :=
  match exec c s with
  | .next t => t
  | .fault _ => s
  | .refused _ => s

theorem exec_eq_next_effect (c : Instr) (s : State) : exec c s = .next (effect c s) := by
  cases c <;> rfl

theorem effect_of_exec {c : Instr} {s t : State} (h : exec c s = .next t) : t = effect c s := by
  rw [exec_eq_next_effect] at h
  injection h with h
  exact h.symm

theorem step_of_front {c : Instr} {rest : List Instr} {s : State} (h : s.pending = c :: rest) :
    step s = exec c (s.setPending rest) := by
  simp only [step, h]

theorem step_of_empty {s : State} (h : s.pending = []) : step s = .next s := by
  simp only [step, h]

/-- A step idles or has the effect of the command at the front (log 1, log 2). -/
theorem step_cases {s t : State} (h : step s = .next t) : t = s ∨ ∃ c rest, t = effect c (s.setPending rest) := by
  cases hp : s.pending with
  | nil =>
    rw [step_of_empty hp] at h
    injection h with h
    exact .inl h.symm
  | cons c rest =>
    rw [step_of_front hp] at h
    exact .inr ⟨c, rest, effect_of_exec h⟩

/-- An invariant that the queue of commands does not enter is kept by every step where every command keeps it. -/
theorem step_keeps {P : State → Prop} (hp : ∀ s l, P s → P (s.setPending l)) (he : ∀ c s, P s → P (effect c s)) {s t : State}
    (hs : P s) (h : step s = .next t) : P t := by
  rcases step_cases h with rfl | ⟨c, rest, rfl⟩
  · exact hs
  · exact he c _ (hp s rest hs)

/-! ## Requests (R166) -/

/-- The bodies a request can have. -/
inductive RequestBody : (State → State) → Prop
  | unknown : RequestBody (answer .unknown 0)
  | read (it : Item) : RequestBody (takeRead it)
  | write (it : Item) (v : Word) : RequestBody (unlessBusy (putItem it v))
  | command (c : Command) (v : Word) (straps : BitVec 3) : RequestBody (giveCommand c v straps)

theorem effect_writeItem_request (number : Byte) (v : Word) (s : State) :
    ∃ f, RequestBody f ∧ effect (.writeItem number v) s = request f s := by
  cases h : Item.ofNumber number with
  | none =>
    have ht : takeWrite number v = answer .unknown 0 := by funext u; simp only [takeWrite, h]
    exact ⟨_, .unknown, ht ▸ rfl⟩
  | some it =>
    have ht : takeWrite number v = unlessBusy (putItem it v) := by funext u; simp only [takeWrite, h]
    exact ⟨_, .write it v, ht ▸ rfl⟩

theorem effect_unknownRequest_request (op : Operation) (number : Byte) (v : Word) (s : State) :
    ∃ f, RequestBody f ∧ effect (.unknownRequest op number v) s = request f s := by
  cases op with
  | readItem =>
    cases h : Item.ofNumber number with
    | none =>
      have ht : takeGeneral .readItem number v = answer .unknown 0 := by funext u; simp only [takeGeneral, h]
      exact ⟨_, .unknown, ht ▸ rfl⟩
    | some it =>
      have ht : takeGeneral .readItem number v = takeRead it := by funext u; simp only [takeGeneral, h]
      exact ⟨_, .read it, ht ▸ rfl⟩
  | writeItem => exact effect_writeItem_request number v s
  | command straps =>
    cases h : Command.ofCode number with
    | none =>
      have ht : takeGeneral (.command straps) number v = answer .unknown 0 := by funext u; simp only [takeGeneral, h]
      exact ⟨_, .unknown, ht ▸ rfl⟩
    | some c =>
      have ht : takeGeneral (.command straps) number v = giveCommand c v straps := by funext u; simp only [takeGeneral, h]
      exact ⟨_, .command c v straps, ht ▸ rfl⟩

/-- Every unicast request is one of these bodies, taken where a frame can be addressed to the bridge. -/
theorem effect_request {c : Instr} (h : isRequest c = true) (s : State) : ∃ f, RequestBody f ∧ effect c s = request f s := by
  cases c
  case unknownRequest op number data => exact effect_unknownRequest_request op number data s
  case writeItem number value => exact effect_writeItem_request number value s
  case start v => exact ⟨_, .command .start v 0, rfl⟩
  case stop v => exact ⟨_, .command .stop v 0, rfl⟩
  case resume v => exact ⟨_, .command .resume v 0, rfl⟩
  case safe via v =>
    cases via
    · exact ⟨_, .command .safe v 0, rfl⟩
    · exact absurd h Bool.false_ne_true
  case freeze v => exact ⟨_, .command .freeze v 0, rfl⟩
  case thaw v => exact ⟨_, .command .thaw v 0, rfl⟩
  case commitWindow v => exact ⟨_, .command .commitWindow v 0, rfl⟩
  case dropWindow v => exact ⟨_, .command .dropWindow v 0, rfl⟩
  case unlock v => exact ⟨_, .command .unlock v 0, rfl⟩
  case reset via v straps =>
    cases via
    · exact ⟨_, .command .reset v straps, rfl⟩
    · exact absurd h Bool.false_ne_true
  case clearLongest v => exact ⟨_, .command .clearLongest v 0, rfl⟩
  case causesWrite v => exact ⟨_, .write .causes v, rfl⟩
  case windowDescriptorWrite n part v => exact ⟨_, .write (.window n part) v, rfl⟩
  case markAddressWrite v => exact ⟨_, .write .markAddress v, rfl⟩
  case markerAddressWrite v => exact ⟨_, .write .markerAddress v, rfl⟩
  case watchdogPeriodWrite v => exact ⟨_, .write .watchdogPeriod v, rfl⟩
  case prescaleWrite v => exact ⟨_, .write .prescale v, rfl⟩
  case stageLowThresholdWrite v => exact ⟨_, .write .stageLowThreshold v, rfl⟩
  case freezeTimerWrite v => exact ⟨_, .write .freezeTimer v, rfl⟩
  case qualifyWrite c v => exact ⟨_, .write (.qualify c) v, rfl⟩
  case actionsWrite v => exact ⟨_, .write .actions v, rfl⟩
  case priorityListAWrite v => exact ⟨_, .write .priorityA v, rfl⟩
  case priorityListBWrite v => exact ⟨_, .write .priorityB v, rfl⟩
  case quietMarkWrite v => exact ⟨_, .write .quietMark v, rfl⟩
  case forceWrite v => exact ⟨_, .write .force v, rfl⟩
  case resumePolicyWrite v => exact ⟨_, .write .resumePolicy v, rfl⟩
  case lockWrite v => exact ⟨_, .write .lock v, rfl⟩
  case imagePointerWrite v => exact ⟨_, .write .imagePointer v, rfl⟩
  case imageDataWrite v => exact ⟨_, .write .imageData v, rfl⟩
  case stateRead => exact ⟨_, .read .state, rfl⟩
  case captureRead => exact ⟨_, .read .capture, rfl⟩
  case imageDataRead => exact ⟨_, .read .imageData, rfl⟩
  all_goals exact absurd h Bool.false_ne_true

/-! ## Latching -/

/-- What the latching of a cause can do (R121, R128, R150). -/
theorem latch_cases (c : Cause) (s : State) :
    latch c s = s ∨ latch c s = s.setCauses (s.causes.setFlag c) ∨
      ((s.ctl.mode = .armed ∨ s.ctl.mode = .run ∨ s.ctl.mode = .ending) ∧
        latch c s = enterSafe (s.setCauses (s.causes.setFlag c))) ∨
      (s.ctl.mode = .safe ∧ s.reissue.resuming = true ∧ latch c s = abandonReissue (s.setCauses (s.causes.setFlag c))) := by
  unfold latch
  by_cases hf : s.causes.flag c = true
  · exact .inl (if_pos hf)
  · simp only [if_neg hf]
    by_cases ha : s.causes.actionSafe c = true
    · simp only [if_pos ha]
      cases hm : s.ctl.mode
      case idle => exact .inr (.inl rfl)
      case safe =>
        cases hr : s.reissue.resuming
        · exact .inr (.inl rfl)
        · exact .inr (.inr (.inr ⟨rfl, rfl, rfl⟩))
      all_goals exact .inr (.inr (.inl ⟨by simp, rfl⟩))
    · exact .inr (.inl (if_neg ha))

/-- A level cause that follows its condition latches, or changes the cause unit alone (R122, R123). -/
theorem followLevel_cases (c : LevelCause) (s : State) :
    followLevel c s = latch c.cause s ∨ ∃ u, followLevel c s = s.setCauses u := by
  unfold followLevel
  dsimp only
  (repeat' split)
  · exact .inl rfl
  · exact .inr ⟨_, rfl⟩
  · exact .inr ⟨s.causes, rfl⟩
  · exact .inr ⟨_, rfl⟩

/-! ## Writes -/

/-- What a write of a defined item can leave (R166 steps 5 and 6). -/
inductive Written (s : State) : State → Prop
  | refused (r : Reason) : Written s (refuse r s)
  | refusedPart (u : CauseUnit) : Written s (refuse .argument (s.setCauses u))
  | causes (u : CauseUnit) : Written s (ackReply (s.setCauses u))
  | latched (c : Cause) (u : CauseUnit) : Written s (ackReply (latch c (s.setCauses u)))
  | followed (c : LevelCause) (u : CauseUnit) : Written s (ackReply (followLevel c (s.setCauses u)))
  | descriptor (n : WinIdx) (d : Fields) : Written s (ackReply (putWindow n { s.win[n] with descriptor := d } s))
  | mark (m : BusMark) (h : findWin s.win m.addr = none) : Written s (ackReply (s.setMark m))
  | marker (m : BusMark) (h : m.enabled = true → findWin s.win m.addr = none) : Written s (ackReply (s.setMarker m))
  | timing (x : Timing) (hr : x.running = s.timing.running) (hw : x.wdState = s.timing.wdState) :
      Written s (ackReply (s.setTiming x))
  | threshold (x : BitVec 8) : Written s (ackReply (followLevel .stageLow (s.setPool { s.pool with threshold := x })))
  | freezeTimer (x : BitVec 8) (r : Range) : Written s (ackReply (s.setFreeze { s.freeze with setting := x, range := r }))
  | policy (p : ResumePolicy) : Written s (ackReply (s.setReissue { s.reissue with policy := p }))
  | lock (v : Word) : Written s (ackReply (s.setMg { s.mg with locked := true, lockCode := v }))
  | pointer (p : BitVec 10) : Written s (ackReply (s.setPointer p))
  | imageData (v : Word) :
      Written s (ackReply ((s.setImage (s.image.writeLanes s.pointer.toNat allLanes v)).setPointer (s.pointer + 1)))

/-- A write that tests the lock and its value is refused or taken. -/
theorem lockedWrite_cases (number : Byte) (bad : Bool) (r : Reason) (good : State → State) (s : State) :
    (∃ r', lockedWrite number bad r good s = refuse r' s) ∨ lockedWrite number bad r good s = good s := by
  unfold lockedWrite
  (repeat' split)
  all_goals first | exact .inr rfl | exact .inl ⟨_, rfl⟩

theorem Written.of_lockedWrite {number : Byte} {bad : Bool} {r : Reason} {good : State → State} {s : State}
    (h : Written s (good s)) : Written s (lockedWrite number bad r good s) := by
  rcases lockedWrite_cases number bad r good s with ⟨r', e⟩ | e
  · exact e ▸ .refused r'
  · exact e ▸ h

/-- A taken write of a qualifying time (R124). -/
theorem Written.of_qualifyTaken (c : LevelCause) (time : BitVec 8) (s : State) :
    Written s (ackReply (qualifyTaken c time s)) := by
  unfold qualifyTaken
  dsimp only
  (repeat' split)
  · exact .causes s.causes
  · exact .followed c _
  · exact .latched c.cause _
  · exact .causes _

theorem Written.of_putPriorityB (v : Word) (s : State) : Written s (putPriorityB v s) := by
  unfold putPriorityB
  dsimp only
  split
  · exact .of_lockedWrite (.causes _)
  · split
    · exact .refused _
    · exact .refusedPart _

theorem Written.of_putDescriptor (n : WinIdx) (part : DescPart) (v : Word) (s : State) : Written s (putDescriptor n part v s) := by
  unfold putDescriptor
  split
  · exact .refused _
  · exact .descriptor n _

theorem Written.of_putMark (v : Word) (s : State) : Written s (putMark v s) := by
  unfold putMark
  (repeat' split)
  · exact .refused _
  · exact .refused _
  · exact .refused _
  · exact .mark _ (by simpa using ‹¬(findWin s.win (BusMark.ofWord v).addr).isSome = true›)

theorem Written.of_putMarker (v : Word) (s : State) : Written s (putMarker v s) := by
  unfold putMarker
  (repeat' split)
  · exact .refused _
  · exact .refused _
  · exact .refused _
  · rename_i h
    exact .marker _ fun he => by simpa [he] using h

theorem putItem_written (it : Item) (v : Word) (s : State) : Written s (putItem it v s) := by
  cases it
  case causes => exact .causes _
  case actions =>
    change Written s (putActions v s)
    unfold putActions
    exact .of_lockedWrite (.causes _)
  case priorityA =>
    change Written s (putPriorityA v s)
    unfold putPriorityA
    split
    · exact .refused _
    · exact .causes _
  case priorityB => exact .of_putPriorityB v s
  case quietMark =>
    change Written s (putQuietMark v s)
    unfold putQuietMark
    exact .of_lockedWrite (.causes _)
  case qualify c =>
    change Written s (putQualify c v s)
    unfold putQualify
    exact .of_lockedWrite (.of_qualifyTaken c _ s)
  case force => exact .causes _
  case markAddress => exact .of_putMark v s
  case markerAddress => exact .of_putMarker v s
  case watchdogPeriod =>
    change Written s (putWatchdog v s)
    unfold putWatchdog
    exact .of_lockedWrite (.timing _ rfl rfl)
  case prescale =>
    change Written s (putPrescale v s)
    unfold putPrescale
    split
    · exact .timing _ rfl rfl
    · exact .refused _
  case stageLowThreshold =>
    change Written s (putThreshold v s)
    unfold putThreshold
    exact .of_lockedWrite (.threshold _)
  case freezeTimer =>
    change Written s (putFreezeTimer v s)
    unfold putFreezeTimer
    split
    · exact .refused _
    · exact .freezeTimer _ _
  case resumePolicy =>
    change Written s (putPolicy v s)
    unfold putPolicy
    exact .of_lockedWrite (.policy _)
  case lock =>
    change Written s (putLock v s)
    unfold putLock
    (repeat' split)
    · exact .refused _
    · exact .refused _
    · exact .lock v
  case imagePointer =>
    change Written s (putPointer v s)
    unfold putPointer
    split
    · exact .refused _
    · exact .pointer _
  case imageData =>
    change Written s (putImageData v s)
    unfold putImageData
    (repeat' split)
    · exact .refused _
    · exact .refused _
    · exact .imageData v
  case window n part => exact .of_putDescriptor n part v s
  all_goals exact .refused .argument

/-! ## Commands of the link -/

/-- What a command of the link, RESET apart, can leave where no command is in flight (Table 11-3). -/
inductive Commanded (s : State) : State → Prop
  | answered (a : Status) (d : Word) : Commanded s (answer a d s)
  | started (hm : s.ctl.mode = .idle) : Commanded s (ackReply (reroute s (startRun s)))
  | stopPending (hm : s.ctl.mode = .run) (ho : allOpen s.win = true) :
      Commanded s (ackReply (s.setCtl { s.ctl with stopPending := true }))
  | stopArmed (hm : s.ctl.mode = .armed) (ho : allOpen s.win = true) : Commanded s (ackReply (reroute s (stopArmed s)))
  | stopSafe (hm : s.ctl.mode = .safe) (hf : s.fill.active = false) (hz : frozenNow s.win = []) :
      Commanded s (ackReply (reroute s (stopSafe s)))
  | resumedFresh (hm : s.ctl.mode = .safe) (hf : s.fill.active = false) : Commanded s (ackReply (reroute s (enterArmed s)))
  | resumedReissue (hm : s.ctl.mode = .safe) (hf : s.fill.active = false) : Commanded s (answer .accepted 0 (beginReissue s))
  | enteredSafe (hm : s.ctl.mode = .armed ∨ s.ctl.mode = .run ∨ s.ctl.mode = .ending) : Commanded s (ackReply (enterSafe s))
  | frozen (n : WinIdx) (hi : s.ctl.mode ≠ .idle) (he : s.ctl.mode ≠ .ending) (hp : s.ctl.stopPending = false)
      (hd : (s.win[n]).defined = true) : Commanded s (ackReply (reroute s (freezeWindow n s)))
  | thawed (n : WinIdx) (hi : s.ctl.mode ≠ .idle) (he : s.ctl.mode ≠ .ending) (hp : s.ctl.stopPending = false)
      (hd : (s.win[n]).defined = true) : Commanded s (ackReply (reroute s (thawWindow n s)))
  | windowCommand (c : InFlight) (hc : c ≠ .reissue) (hm : s.ctl.mode = .idle) :
      Commanded s (answer .accepted 0 (takeInFlight c s))
  | unlocked : Commanded s (ackReply (s.setMg { s.mg with locked := false, lockCode := 0 }))
  | clearedLongest : Commanded s (ackReply (s.setTiming { s.timing with longest := 0 }))

theorem Commanded.refused (r : Reason) (s : State) : Commanded s (refuse r s) := .answered _ _

theorem takeStart_commanded (s : State) : Commanded s (takeStart s) := by
  unfold takeStart
  (repeat' split)
  · exact .refused _ s
  · exact .refused _ s
  · exact .refused _ s
  · exact .refused _ s
  · exact .started (by simp_all)

theorem takeStop_commanded (s : State) : Commanded s (takeStop s) := by
  unfold takeStop
  cases hm : s.ctl.mode
  case idle => exact .answered _ _
  case ending => exact .answered _ _
  case run =>
    dsimp only
    (repeat' split)
    · exact .answered _ _
    · exact .refused _ s
    · rename_i h; exact .stopPending hm (by simpa using h)
  case armed =>
    dsimp only
    split
    · exact .refused _ s
    · rename_i h; exact .stopArmed hm (by simpa using h)
  case safe =>
    dsimp only
    (repeat' split)
    · exact .answered _ _
    · exact .refused _ s
    · rename_i h h'; exact .stopSafe hm (by simpa using h) (by simpa using h')

theorem takeResume_commanded (s : State) : Commanded s (takeResume s) := by
  unfold takeResume
  split
  · exact .refused _ s
  · rename_i hm
    replace hm : s.ctl.mode = .safe := by simpa using hm
    split
    · exact .answered _ _
    · rename_i hf
      replace hf : s.fill.active = false := by simpa using hf
      (repeat' split)
      · exact .refused _ s
      · exact .refused _ s
      · exact .resumedFresh hm hf
      · exact .resumedReissue hm hf

theorem takeSafe_commanded (s : State) : Commanded s (takeSafe s) := by
  unfold takeSafe
  cases hm : s.ctl.mode
  case idle => exact .refused _ s
  case safe => exact .answered _ _
  all_goals exact .enteredSafe (by simp [hm])

/-- The tests that FREEZE n and THAW n share refuse the command, or give it a defined window of a bridge that is cycling (R107). -/
theorem freezeTests_cases (v : Word) (good : WinIdx → State → State) (s : State) :
    (∃ r, freezeTests v good s = refuse r s) ∨ ∃ n, s.ctl.mode ≠ .idle ∧ s.ctl.mode ≠ .ending ∧ s.ctl.stopPending = false ∧
      (s.win[n]).defined = true ∧ freezeTests v good s = good n s := by
  unfold freezeTests
  split
  · exact .inl ⟨_, rfl⟩
  · rename_i n _
    (repeat' split)
    · exact .inl ⟨_, rfl⟩
    · exact .inl ⟨_, rfl⟩
    · exact .inl ⟨_, rfl⟩
    · rename_i hm hp hd
      rw [not_or] at hm
      exact .inr ⟨n, hm.1, hm.2, by simpa using hp, by simpa using hd, rfl⟩

theorem takeFreeze_commanded (v : Word) (s : State) : Commanded s (takeFreeze v s) := by
  unfold takeFreeze
  rcases freezeTests_cases v (fun n s => if s.freeze.setting = 0 then refuse .range s else ackReply (reroute s (freezeWindow n s))) s
    with ⟨r, h⟩ | ⟨n, hi, he, hp, hd, h⟩
  · exact h ▸ .refused r s
  · rw [h]
    split
    · exact .refused _ s
    · exact .frozen n hi he hp hd

theorem takeThaw_commanded (v : Word) (s : State) : Commanded s (takeThaw v s) := by
  unfold takeThaw
  rcases freezeTests_cases v (fun n s => ackReply (reroute s (thawWindow n s))) s with ⟨r, h⟩ | ⟨n, hi, he, hp, hd, h⟩
  · exact h ▸ .refused r s
  · exact h ▸ .thawed n hi he hp hd

theorem takeWindowCommand_commanded (v : Word) {c : WinIdx → InFlight} (hc : ∀ n, c n ≠ .reissue) (s : State) :
    Commanded s (takeWindowCommand v c s) := by
  unfold takeWindowCommand
  (repeat' split)
  · exact .refused _ s
  · exact .refused _ s
  · exact .refused _ s
  · exact .windowCommand _ (hc _) (by simp_all)

theorem takeUnlock_commanded (v : Word) (s : State) : Commanded s (takeUnlock v s) := by
  unfold takeUnlock
  (repeat' split)
  · exact .unlocked
  · exact .refused _ s
  · exact .answered _ _

/-- A write or command of a bridge with a command in flight is BUSY with COLLISION, and has its own rule otherwise (R166 step 4). -/
theorem unlessBusy_cases (f : State → State) (s : State) :
    (s.mg.command ≠ none ∧ unlessBusy f s = answer .busy 0 (s.setMg { s.mg with collision := true })) ∨
      (s.mg.command = none ∧ unlessBusy f s = f s) := by
  unfold unlessBusy
  cases h : s.mg.command <;> simp

/-- A command of the link: a RESET, BUSY, or by its own rule. -/
theorem giveCommand_cases (c : Command) (v : Word) (straps : BitVec 3) (s : State) :
    giveCommand c v straps s = ackReply (resetTaken straps s) ∨
      giveCommand c v straps s = answer .busy 0 (s.setMg { s.mg with collision := true }) ∨
      (c = .reset ∧ giveCommand c v straps s = refuse .argument s) ∨
      (s.mg.command = none ∧ Commanded s (giveCommand c v straps s)) := by
  have busy : ∀ f : State → State, Commanded s (f s) → unlessBusy f s = ackReply (resetTaken straps s) ∨
      unlessBusy f s = answer .busy 0 (s.setMg { s.mg with collision := true }) ∨
      (c = .reset ∧ unlessBusy f s = refuse .argument s) ∨ (s.mg.command = none ∧ Commanded s (unlessBusy f s)) := by
    intro f h
    rcases unlessBusy_cases f s with ⟨-, e⟩ | ⟨hn, e⟩
    · exact .inr (.inl e)
    · exact .inr (.inr (.inr ⟨hn, e ▸ h⟩))
  cases c
  case reset =>
    by_cases h : v = Config.resetArgument
    · exact .inl (by simp only [giveCommand, takeReset, h, if_true])
    · exact .inr (.inr (.inl ⟨rfl, by simp only [giveCommand, takeReset, h, if_false]⟩))
  case start => exact busy takeStart (takeStart_commanded s)
  case stop => exact busy takeStop (takeStop_commanded s)
  case resume => exact busy takeResume (takeResume_commanded s)
  case safe => exact busy takeSafe (takeSafe_commanded s)
  case freeze => exact busy (takeFreeze v) (takeFreeze_commanded v s)
  case thaw => exact busy (takeThaw v) (takeThaw_commanded v s)
  case commitWindow => exact busy (takeWindowCommand v .commitWindow) (takeWindowCommand_commanded v (by simp) s)
  case dropWindow => exact busy (takeWindowCommand v .dropWindow) (takeWindowCommand_commanded v (by simp) s)
  case unlock => exact busy (takeUnlock v) (takeUnlock_commanded v s)
  case clearLongest => exact busy takeClearLongest .clearedLongest

/-! ## A request, whole -/

/-- What a request that is taken can leave. -/
inductive Requested (s : State) : State → Prop
  | answered (a : Status) (d : Word) : Requested s (answer a d s)
  | busy : Requested s (answer .busy 0 (s.setMg { s.mg with collision := true }))
  | reset (straps : BitVec 3) : Requested s (ackReply (resetTaken straps s))
  | read (it : Item) (d : Word) : Requested s (answer .ack d (readEffect it s))
  | written (t : State) (h : Written s t) : Requested s t
  | commanded (t : State) (hn : s.mg.command = none) (h : Commanded s t) : Requested s t

theorem RequestBody.requested {f : State → State} (h : RequestBody f) (s : State) : Requested s (f s) := by
  cases h with
  | unknown => exact .answered _ _
  | read it => exact .read it _
  | write it v =>
    rcases unlessBusy_cases (putItem it v) s with ⟨-, e⟩ | ⟨-, e⟩
    · exact e ▸ .busy
    · exact e ▸ .written _ (putItem_written it v s)
  | command c v straps =>
    rcases giveCommand_cases c v straps s with e | e | ⟨-, e⟩ | ⟨hn, h⟩
    · exact e ▸ .reset straps
    · exact e ▸ .busy
    · exact e ▸ .answered _ _
    · exact .commanded _ hn h

/-- A unicast request leaves the state as it is, or is taken. -/
theorem effect_request_cases {c : Instr} (h : isRequest c = true) (s : State) :
    (¬Listening s ∧ effect c s = s) ∨ (Listening s ∧ Requested s (effect c s)) := by
  obtain ⟨f, hf, e⟩ := effect_request h s
  rw [e]
  by_cases hl : Listening s
  · rw [request_of_listening hl]
    exact .inr ⟨hl, hf.requested s⟩
  · exact .inl ⟨hl, request_of_not_listening hl f⟩

end Sys2Proof.Machine
end

section
/-! PROOF. What an event can do, once for every invariant: the commands that are no request, each with the conditions under which it has its
effect. -/

namespace Sys2Proof.Machine

/-- What a command that is no request can leave. -/
inductive Happened (s : State) : State → Prop
  | nothing : Happened s s
  | poweredOn (pins : PowerPins) : Happened s (effect (.powerOn pins) s)
  | resetAsserted : Happened s (effect .resetInputAsserted s)
  | resetNegated (straps : BitVec 3) (sel : Bool) : Happened s (effect (.resetInputNegated straps sel) s)
  | lines (l : Lines) (h : l.resetHeld = s.lines.resetHeld) : Happened s (s.setLines l)
  | fltIn (l : Lines) (hr : s.lines.resetHeld = false) (h : l.resetHeld = s.lines.resetHeld) :
      Happened s (followLevel .chain (s.setLines l))
  | held (a : Access) (hc : s.cp = .idle) (hr : s.lines.resetHeld = true) :
      Happened s (s.setCp (.outstanding ⟨a, .plain, .held, false⟩))
  | taken (a : Access) (g : Bool) (hc : s.cp = .idle) (hr : s.lines.resetHeld = false) :
      Happened s (followLevel .stageLow (route g ⟨a, classify s a, .held, false⟩ s))
  | reqNegated : Happened s (s.setCp .idle)
  | granted (l : PortLines) (hr : s.lines.resetHeld = false) : Happened s (grantPort (samplePort l s))
  | ended (l : PortLines) (ok : Bool) (d : Word) (hr : s.lines.resetHeld = false) :
      Happened s (accessEnded ok d (samplePort l s))
  | timedOut (hr : s.lines.resetHeld = false) : Happened s (accessEnded false 0 s)
  | poolStall (o : Outstanding) (n : WinIdx) (hc : s.cp = .outstanding o) (ht : treatmentOf s o.cls o.access = .staged n) :
      Happened s (followLevel .stageLow (stageWrite false n o s))
  | retired (hd : retirementDue s = true) : Happened s (retireWhole s)
  | markReleased (o : Outstanding) (hm : s.ctl.mode = .run) : Happened s (releaseMark o s)
  | endingRouted (o : Outstanding) (hc : s.cp = .outstanding o) (hw : o.wait = .endingStall) : Happened s (route false o s)
  | fillEnded (f : Fill) (ha : s.fill.active = true) : Happened s (s.setFill f)
  | reissueEnded (hr : s.reissue.resuming = true) (hf : s.fill.active = false) :
      Happened s (reroute s (complete .ok (enterArmed (s.setReissue { s.reissue with resuming := false, position := none }))))
  | installed (n : WinIdx) (hc : s.mg.command = some (.commitWindow n)) (hk : commitCheck s n = .ok) :
      Happened s (complete .ok (installWindow n s))
  | reloaded (n : WinIdx) (r : Reason) (hc : s.mg.command = some (.commitWindow n)) :
      Happened s (complete r (putWindow n { s.win[n] with descriptor := (s.win[n]).record } s))
  | dropped (n : WinIdx) (hc : s.mg.command = some (.dropWindow n)) : Happened s (complete .ok (dropDefined n s))
  | watchdog (hr : s.lines.resetHeld = false) (hw : s.timing.wdState = .running) :
      Happened s (latch .wdog (s.setTiming { s.timing with wdState := .expired }))
  | freezeExpired (b : Bool) (hr : s.lines.resetHeld = false) : Happened s (freezeExpiry b s)
  | countedDown (r : BitVec 8) (hr : s.lines.resetHeld = false) : Happened s (s.setFreeze { s.freeze with remaining := r })
  | counted (c : BitVec 24) (hr : s.lines.resetHeld = false) : Happened s (s.setTiming { s.timing with count := c })
  | qualified (u : CauseUnit) (hr : s.lines.resetHeld = false) : Happened s (s.setCauses u)
  | latched (c : Cause) (hr : s.lines.resetHeld = false) : Happened s (latch c s)
  | closed (hr : s.lines.resetHeld = false) : Happened s (closeFrame s)
  | linkClosed (hr : s.lines.resetHeld = false) : Happened s (closeFrame (latch .link s))
  | errored (r : Option Reply) (hr : s.lines.resetHeld = false) : Happened s (errorFrame r s)
  | safeBroadcast (hr : s.lines.resetHeld = false) (hm : s.ctl.mode = .armed ∨ s.ctl.mode = .run ∨ s.ctl.mode = .ending) :
      Happened s (enterSafe (closeFrame s))
  | resetBroadcast (straps : BitVec 3) (hr : s.lines.resetHeld = false) : Happened s (resetTaken straps s)

/-- An event that RESET holds off. -/
theorem Happened.of_unlessReset {f : State → State} {s : State} (h : s.lines.resetHeld = false → Happened s (f s)) :
    Happened s (unlessReset f s) := by
  unfold unlessReset
  cases hr : s.lines.resetHeld
  · exact h hr
  · exact .nothing

theorem controllerAccess_happened (a : Access) (g : Bool) (s : State) : Happened s (takeAccess g a s) := by
  unfold takeAccess
  split
  · rename_i hc
    split
    · rename_i hr; exact .held a hc hr
    · rename_i hr; exact .taken a g hc (by simpa using hr)
  · exact .nothing

theorem poolStallEnd_happened {o : Outstanding} {s : State} (hc : s.cp = .outstanding o) : Happened s (endPoolStall o s) := by
  unfold endPoolStall
  (repeat' split)
  · exact .poolStall o _ hc ‹_›
  · exact .nothing
  · exact .nothing

theorem markStallEnd_happened (o : Outstanding) (s : State) : Happened s (endMarkStall o s) := by
  unfold endMarkStall
  (repeat' split)
  · exact .retired ‹_›
  · exact .markReleased o ‹_›
  · exact .nothing
  · exact .nothing

theorem endingStallEnd_happened {o : Outstanding} {s : State} (hc : s.cp = .outstanding o) : Happened s (endEndingStall o s) := by
  unfold endEndingStall
  (repeat' split)
  · exact .endingRouted o hc ‹_›
  · rename_i h; exact .retired h.1
  · exact .nothing
  · exact .nothing

theorem safeBroadcast_happened {s : State} (hr : s.lines.resetHeld = false) : Happened s (safeBroadcast s) := by
  unfold safeBroadcast
  cases hm : s.ctl.mode
  case idle => exact .closed hr
  case safe => exact .closed hr
  all_goals exact .safeBroadcast hr (by simp [hm])

theorem resetBroadcast_happened (v : Word) (straps : BitVec 3) {s : State} (hr : s.lines.resetHeld = false) :
    Happened s (resetBroadcast v straps s) := by
  unfold resetBroadcast
  split
  · exact .resetBroadcast straps hr
  · exact .closed hr

theorem frameEnd_happened (f : Frame) (straps : BitVec 3) {s : State} (hr : s.lines.resetHeld = false) :
    Happened s (endFrame f straps s) := by
  have broadcast : Happened s (endBroadcast f straps s) := by
    unfold endBroadcast actOnBroadcast
    (repeat' split)
    · exact .linkClosed hr
    · exact safeBroadcast_happened hr
    · exact resetBroadcast_happened _ straps hr
    · exact .linkClosed hr
  have untaken : Happened s (endUntaken f s) := by
    unfold endUntaken
    split
    · exact .closed hr
    · exact .linkClosed hr
  unfold endFrame
  (repeat' split)
  · exact .closed hr
  · exact .closed hr
  · exact .closed hr
  · exact .linkClosed hr
  · exact .closed hr
  · exact broadcast
  · exact untaken
  · exact .closed hr

theorem resetHeld_of_receiving {s : State} (h : receiving s = true) : s.lines.resetHeld = false := by
  have := (Bool.and_eq_true _ _ ▸ h : (!s.lines.resetHeld) = true ∧ _).1
  simpa using this

theorem frameError_happened (b : RequestBytes) (s : State) : Happened s (effect (.frameError b) s) := by
  change Happened s (if receiving s ∧ b.inError then _ else s)
  (repeat' split)
  · exact .errored _ (resetHeld_of_receiving (And.left ‹_›))
  · exact .errored _ (resetHeld_of_receiving (And.left ‹_›))
  · exact .nothing
  · exact .nothing

theorem safeFillComplete_happened (s : State) : Happened s (effect .safeFillComplete s) := by
  change Happened s (if s.fill.active ∧ s.fill.phase = .due then _ else s)
  (repeat' split)
  · exact .fillEnded _ (And.left ‹_›)
  · exact .fillEnded _ (And.left ‹_›)
  · exact .nothing

theorem reissueComplete_happened (s : State) : Happened s (effect .reissueComplete s) := by
  change Happened s (if s.reissue.resuming ∧ s.reissue.phase = .due ∧ !s.fill.active then _ else s)
  split
  · rename_i h; exact .reissueEnded h.1 (by simpa using h.2.2)
  · exact .nothing

theorem commitWindowComplete_happened (s : State) : Happened s (effect .commitWindowComplete s) := by
  change Happened s (match s.mg.command with
    | some (.commitWindow n) => _
    | _ => s)
  split
  · split
    · exact .installed _ ‹_› ‹_›
    · exact .reloaded _ _ ‹_›
  · exact .nothing

theorem dropWindowComplete_happened (s : State) : Happened s (effect .dropWindowComplete s) := by
  change Happened s (match s.mg.command with
    | some (.dropWindow n) => _
    | _ => s)
  split
  · exact .dropped _ ‹_›
  · exact .nothing

/-- Every command that is no request is one of these events. -/
theorem effect_event {c : Instr} (h : isRequest c = false) (s : State) : Happened s (effect c s) := by
  cases c
  case powerOn pins => exact .poweredOn pins
  case resetInputAsserted => exact .resetAsserted
  case resetInputNegated straps sel => exact .resetNegated straps sel
  case fltInChange level =>
    change Happened s (unlessReset (followLevel .chain) (s.setLines { s.lines with fltIn := level }))
    unfold unlessReset
    split
    · exact .lines _ rfl
    · rename_i hr; exact .fltIn _ (by simpa using hr) rfl
  case alrInChange level => exact .lines _ rfl
  case controllerAccess a g => exact controllerAccess_happened a g s
  case cpReqNegated =>
    change Happened s (match s.cp with
      | .ended _ _ _ => s.setCp .idle
      | _ => s)
    split
    · exact .reqNegated
    · exact .nothing
  case memoryPortGrant l =>
    change Happened s (unlessReset (fun s => grantPort (samplePort l s)) s)
    exact .of_unlessReset fun hr => .granted l hr
  case memoryPortAccessEnd l d =>
    change Happened s (unlessReset (fun s => if l.ack || l.fail then accessEnded (l.ack && !l.fail) d (samplePort l s)
      else samplePort l s) s)
    refine .of_unlessReset fun hr => ?_
    split
    · exact .ended l _ d hr
    · exact .lines _ rfl
  case memoryPortTimeout =>
    change Happened s (unlessReset (fun s => accessEnded false 0 s) s)
    exact .of_unlessReset .timedOut
  case poolStallEnd =>
    change Happened s (match s.cp with
      | .outstanding o => endPoolStall o s
      | _ => s)
    split
    · exact poolStallEnd_happened ‹_›
    · exact .nothing
  case markStallEnd =>
    change Happened s (match s.cp with
      | .outstanding o => endMarkStall o s
      | _ => s)
    split
    · exact markStallEnd_happened _ s
    · exact .nothing
  case endingStallEnd =>
    change Happened s (match s.cp with
      | .outstanding o => endEndingStall o s
      | _ => s)
    split
    · exact endingStallEnd_happened ‹_›
    · exact .nothing
  case retirement =>
    change Happened s (if retirementDue s then retireWhole s else s)
    split
    · exact .retired ‹_›
    · exact .nothing
  case safeFillComplete => exact safeFillComplete_happened s
  case reissueComplete => exact reissueComplete_happened s
  case commitWindowComplete => exact commitWindowComplete_happened s
  case dropWindowComplete => exact dropWindowComplete_happened s
  case watchdogExpiry =>
    change Happened s (unlessReset (fun s => if s.timing.wdReached then _ else s) s)
    refine .of_unlessReset fun hr => ?_
    dsimp only
    split
    · rename_i h
      simp only [Timing.wdReached, Bool.and_eq_true, decide_eq_true_eq] at h
      exact .watchdog hr h.1
    · exact .nothing
  case freezeTimerExpiry b =>
    change Happened s (unlessReset (fun s => if s.freeze.running ∧ s.freeze.remaining = 0 then freezeExpiry b s else s) s)
    refine .of_unlessReset fun hr => ?_
    split
    · exact .freezeExpired b hr
    · exact .nothing
  case qualifyingTimeReached c =>
    change Happened s (unlessReset (fun s => if qualifying c s ∧ (s.causes.level c).limit ≤ (s.causes.level c).timer then latch c.cause s else s) s)
    refine .of_unlessReset fun hr => ?_
    split
    · exact .latched _ hr
    · exact .nothing
  case frameEnd f straps => exact .of_unlessReset (frameEnd_happened f straps)
  case frameError b => exact frameError_happened b s
  case safe via v =>
    cases via
    · exact absurd h.symm Bool.false_ne_true
    · change Happened s (if receiving s then safeBroadcast s else s)
      split
      · exact safeBroadcast_happened (resetHeld_of_receiving ‹_›)
      · exact .nothing
  case reset via v straps =>
    cases via
    · exact absurd h.symm Bool.false_ne_true
    · change Happened s (if receiving s then resetBroadcast v straps s else s)
      split
      · exact resetBroadcast_happened v straps (resetHeld_of_receiving ‹_›)
      · exact .nothing
  case periodCounterAdvance =>
    change Happened s (unlessReset (fun s => s.setTiming s.timing.advance) s)
    refine .of_unlessReset fun hr => ?_
    unfold Timing.advance
    split
    · exact .counted _ hr
    · exact .counted s.timing.count hr
  case freezeTimerCountDown =>
    change Happened s (unlessReset (fun s => if s.freeze.running ∧ s.freeze.remaining ≠ 0 then _ else s) s)
    refine .of_unlessReset fun hr => ?_
    dsimp only
    split
    · exact .countedDown _ hr
    · exact .nothing
  case qualifyingTimerAdvance c k =>
    change Happened s (unlessReset (fun s => if qualifying c s then _ else s) s)
    refine .of_unlessReset fun hr => ?_
    dsimp only
    split
    · exact .qualified _ hr
    · exact .nothing
  all_goals exact absurd h.symm Bool.false_ne_true

/-- Every command is a request that is not for the bridge, a request taken, or an event. -/
theorem effect_cases (c : Instr) (s : State) :
    effect c s = s ∨ (Listening s ∧ Requested s (effect c s)) ∨ Happened s (effect c s) := by
  cases h : isRequest c
  · exact .inr (.inr (effect_event h s))
  · rcases effect_request_cases h s with ⟨-, e⟩ | h
    · exact .inl e
    · exact .inr (.inl h)

/-- An invariant that the queue does not enter is kept by every step where the requests taken and the events keep it. -/
theorem step_keeps_of_cases {P : State → Prop} (hp : ∀ s l, P s → P (s.setPending l))
    (hq : ∀ s t, P s → Listening s → Requested s t → P t) (he : ∀ s t, P s → Happened s t → P t) {s t : State}
    (hs : P s) (h : step s = .next t) : P t := by
  refine step_keeps hp (fun c s hs => ?_) hs h
  rcases effect_cases c s with e | ⟨hl, h⟩ | h
  · exact e.symm ▸ hs
  · exact hq s _ hs hl h
  · exact he s _ hs h

end Sys2Proof.Machine
end

section
/-! PROOF. The queue of commands, power-on and the RESET input: a step takes the front command, every command answers and leaves the queue,
and while RESET is asserted nothing but its negation moves the bridge (R4, R17, R135). -/

namespace Sys2Proof.Machine

/-- Settles O1: the step reads the front of the queue and nothing else. -/
theorem stepTakesFront : Obligations.StepTakesFront :=
  ⟨fun _ _ _ h => step_of_front h, fun _ h => step_of_empty h⟩

/-! ## What every command but a reset keeps -/

theorem readEffect_keeps (it : Item) (s : State) : (readEffect it s).pending = s.pending ∧ (readEffect it s).lines = s.lines := by
  cases it <;> exact ⟨rfl, rfl⟩

theorem Written.keeps {s t : State} (h : Written s t) : t.pending = s.pending ∧ t.lines = s.lines := by
  cases h <;> simp

theorem Commanded.keeps {s t : State} (h : Commanded s t) : t.pending = s.pending ∧ t.lines = s.lines := by
  cases h <;> simp [startRun, Machine.stopArmed, Machine.stopSafe, beginReissue]

theorem Requested.keeps {s t : State} (h : Requested s t) : t.pending = s.pending ∧ t.lines = s.lines := by
  cases h with
  | answered a d => simp
  | busy => simp
  | reset straps => exact ⟨rfl, rfl⟩
  | read it d => simpa using readEffect_keeps it s
  | written t h => exact h.keeps
  | commanded t hn h => exact h.keeps

theorem effect_powerOn_pending (pins : PowerPins) (s : State) : (effect (.powerOn pins) s).pending = s.pending := by
  change (if s.lines.resetHeld then _ else latchPowerOn _ : State).pending = _
  split <;> rfl

theorem effect_resetInputNegated_pending (straps : BitVec 3) (sel : Bool) (s : State) :
    (effect (.resetInputNegated straps sel) s).pending = s.pending := by
  change (if s.lines.resetHeld then latchPowerOn _ else s : State).pending = _
  split <;> rfl

/-- An event leaves the queue of commands. -/
theorem Happened.pending {s t : State} (h : Happened s t) : t.pending = s.pending := by
  cases h with
  | poweredOn pins => exact effect_powerOn_pending pins s
  | resetNegated straps sel => exact effect_resetInputNegated_pending straps sel s
  | resetAsserted => rfl
  | resetBroadcast straps hr => rfl
  | _ => simp

/-- Settles O2: each command's arm is a next state, and neither a request nor an event writes the queue. -/
theorem everyCommandAnswersNext : Obligations.EveryCommandAnswersNext := by
  intro c s
  refine ⟨effect c s, exec_eq_next_effect c s, ?_⟩
  rcases effect_cases c s with e | ⟨-, h⟩ | h
  · rw [e]
  · exact h.keeps.1
  · exact h.pending

/-! ## RESET asserted -/

/-- The bridge as RESET holds it: every block in its reset state (R4). -/
def heldState (s : State) (c : CpState) : State :=
  (((State.blocksReset.setPending s.pending).setLines s.lines).setIdentity s.identity).setCp c

/-- A Controller Port at which nothing is asserted while RESET holds the bridge (R4, log 16). -/
def CpHeld : CpState → Prop
  | .idle => True
  | .outstanding o => o.cls = .plain ∧ o.wait = .held ∧ o.effectTaken = false
  | .ended ack fail data => ack = false ∧ fail = false ∧ data = 0

theorem heldInv_iff (s : State) : HeldInv s ↔ (s.lines.resetHeld = true → s = heldState s s.cp ∧ CpHeld s.cp) := by
  unfold HeldInv CpHeld heldState
  cases s.cp <;> exact Iff.rfl

theorem HeldInv.of_not_held {s : State} (h : s.lines.resetHeld = false) : HeldInv s :=
  fun hr => absurd (h.symm.trans hr) Bool.false_ne_true

theorem holdCp_held (c : CpState) : CpHeld (holdCp c) := by
  cases c <;> simp [holdCp, CpHeld]

/-- A bridge that RESET holds, with another access held at the Controller Port. -/
theorem HeldInv.setCp {s : State} (h : HeldInv s) {c : CpState} (hc : CpHeld c) : HeldInv (s.setCp c) := by
  rw [heldInv_iff] at h ⊢
  intro hr
  obtain ⟨hs, -⟩ := h hr
  refine ⟨?_, hc⟩
  conv_lhs => rw [hs]
  rfl

/-- The lines may change under RESET. -/
theorem HeldInv.setLines {s : State} (h : HeldInv s) {l : Lines} (hl : l.resetHeld = s.lines.resetHeld) : HeldInv (s.setLines l) := by
  rw [heldInv_iff] at h ⊢
  intro hr
  obtain ⟨hs, hc⟩ := h (hl ▸ hr)
  refine ⟨?_, hc⟩
  conv_lhs => rw [hs]
  rfl

/-- What the blocks of a held bridge hold that an event could wait for. -/
theorem HeldInv.blocks {s : State} (h : HeldInv s) (hr : s.lines.resetHeld = true) :
    s.release.retireDue = false ∧ s.ctl.mode = .idle ∧ s.fill.active = false ∧ s.reissue.resuming = false ∧
      s.mg.command = none ∧ ∀ o, s.cp = .outstanding o → o.cls = .plain ∧ o.wait = .held := by
  rw [heldInv_iff] at h
  obtain ⟨hs, hc⟩ := h hr
  refine ⟨?_, ?_, ?_, ?_, ?_, fun o ho => ?_⟩
  iterate 5 rw [hs]; rfl
  rw [ho] at hc
  exact ⟨hc.1, hc.2.1⟩

theorem HeldInv.poweredOn (pins : PowerPins) (s : State) : HeldInv (effect (.powerOn pins) s) := by
  cases hr : s.lines.resetHeld
  · refine HeldInv.of_not_held ?_
    change (if s.lines.resetHeld then _ else latchPowerOn _ : State).lines.resetHeld = false
    rw [hr]
    exact hr
  · have : effect (.powerOn pins) s = ((blocksFrom s { s.lines with fltIn := pins.fltIn, alrIn := pins.alrIn }
        (holdCp s.cp)).setIdentity pins.straps) := by
      change (if s.lines.resetHeld then _ else latchPowerOn _ : State) = _
      rw [hr]
      rfl
    rw [this, heldInv_iff]
    exact fun _ => ⟨rfl, holdCp_held s.cp⟩

theorem HeldInv.resetAsserted (s : State) : HeldInv (effect .resetInputAsserted s) :=
  (heldInv_iff _).2 fun _ => ⟨rfl, holdCp_held s.cp⟩

/-- The negation of RESET leaves it negated. -/
theorem effect_resetInputNegated_lines (straps : BitVec 3) (sel : Bool) (s : State) :
    (effect (.resetInputNegated straps sel) s).lines.resetHeld = false := by
  change (if s.lines.resetHeld then latchPowerOn _ else s : State).lines.resetHeld = _
  cases hr : s.lines.resetHeld
  · exact hr
  · rfl

/-- An event under RESET changes the lines or the held access, or is a reset; with RESET negated an event but its assertion leaves it so. -/
theorem Happened.keeps_held {s t : State} (hi : HeldInv s) (h : Happened s t) : HeldInv t := by
  have off : s.lines.resetHeld = false → t.lines = s.lines → HeldInv t := fun hr e => .of_not_held (e ▸ hr)
  -- a guard that no held bridge meets
  have blocked : (s.lines.resetHeld = true → False) → t.lines = s.lines → HeldInv t :=
    fun hb e => off (by cases hr : s.lines.resetHeld with | false => rfl | true => exact (hb hr).elim) e
  cases h with
  | nothing => exact hi
  | poweredOn pins => exact .poweredOn pins s
  | resetAsserted => exact .resetAsserted s
  | resetNegated straps sel => exact .of_not_held (effect_resetInputNegated_lines straps sel s)
  | lines l h => exact hi.setLines h
  | fltIn l hr h => exact .of_not_held (by simp [h, hr])
  | held a hc hr => exact hi.setCp ⟨rfl, rfl, rfl⟩
  | reqNegated => exact hi.setCp trivial
  | taken a g hc hr => exact off hr (by simp)
  | granted l hr => exact .of_not_held (by simpa [samplePort] using hr)
  | ended l ok d hr => exact .of_not_held (by simpa [samplePort] using hr)
  | poolStall o n hc ht =>
    refine blocked (fun hr => ?_) (by simp)
    obtain ⟨-, -, -, -, -, hw⟩ := hi.blocks hr
    rw [(hw o hc).1] at ht
    simp [treatmentOf] at ht
  | retired hd =>
    refine blocked (fun hr => ?_) (by simp)
    simp [retirementDue, (hi.blocks hr).1] at hd
  | markReleased o hm =>
    refine blocked (fun hr => ?_) (by simp)
    obtain ⟨-, hidle, -⟩ := hi.blocks hr
    simp [hidle] at hm
  | endingRouted o hc hw =>
    refine blocked (fun hr => ?_) (by simp)
    obtain ⟨-, -, -, -, -, ho⟩ := hi.blocks hr
    simp [(ho o hc).2] at hw
  | fillEnded f ha =>
    refine blocked (fun hr => ?_) (by simp)
    obtain ⟨-, -, hf, -⟩ := hi.blocks hr
    simp [hf] at ha
  | reissueEnded ha hf =>
    refine blocked (fun hr => ?_) (by simp)
    obtain ⟨-, -, -, hn, -⟩ := hi.blocks hr
    simp [hn] at ha
  | installed n hc hk =>
    refine blocked (fun hr => ?_) (by simp)
    obtain ⟨-, -, -, -, hn, -⟩ := hi.blocks hr
    simp [hn] at hc
  | reloaded n r hc =>
    refine blocked (fun hr => ?_) (by simp)
    obtain ⟨-, -, -, -, hn, -⟩ := hi.blocks hr
    simp [hn] at hc
  | dropped n hc =>
    refine blocked (fun hr => ?_) (by simp)
    obtain ⟨-, -, -, -, hn, -⟩ := hi.blocks hr
    simp [hn] at hc
  | timedOut hr => exact off hr (by simp)
  | watchdog hr hw => exact off hr (by simp)
  | freezeExpired b hr => exact off hr (by simp)
  | countedDown r hr => exact off hr rfl
  | counted c hr => exact off hr rfl
  | qualified u hr => exact off hr rfl
  | latched c hr => exact off hr (by simp)
  | closed hr => exact off hr (by simp)
  | linkClosed hr => exact off hr (by simp)
  | errored r hr => exact off hr (by simp)
  | safeBroadcast hr hm => exact off hr (by simp)
  | resetBroadcast straps hr => exact off hr rfl

/-- Settles O9: under RESET no request is for the bridge, and of the events only a reset, a change of the lines and the Controller Port's
own come about. -/
theorem heldKept : Obligations.HeldKept := by
  intro s t hi h
  refine step_keeps_of_cases (fun s l hi => ?queue) (fun s t hi hl h => ?request) (fun s t hi h => h.keeps_held hi) hi h
  case queue =>
    rw [heldInv_iff] at hi ⊢
    intro hr
    obtain ⟨hs, hc⟩ := hi hr
    refine ⟨?_, hc⟩
    conv_lhs => rw [hs]
    rfl
  case request => exact .of_not_held (h.keeps.2 ▸ hl.1)

end Sys2Proof.Machine
end

section
/-! PROOF. What the resets leave: power-on, the RESET input and the RESET command, and the requests that are not taken (R4, R17, R135, R162,
R170, R173, R174). -/

namespace Sys2Proof.Machine

/-! ## The reset state -/

theorem reset_win (n : WinIdx) : State.reset.win[n] = Window.reset := by
  revert n; decide

theorem reset_flag (c : Cause) : State.reset.causes.flag c = decide (c = .powerOn) := by
  cases c <;> decide

theorem reset_actionSafe (c : Cause) :
    State.reset.causes.actionSafe c = decide (c = .wdog ∨ c = .memory ∨ c = .chain) := by
  cases c <;> decide

/-- Settles O4: every field of the reset state is the one the manual names. -/
theorem resetLeaves : Obligations.ResetLeaves :=
  ⟨rfl, rfl, reset_win, rfl, rfl, rfl, rfl, fun _ => rfl, fun _ => rfl, rfl, rfl, rfl, rfl, rfl, rfl, rfl, rfl, rfl, rfl,
    reset_flag, reset_actionSafe, rfl, rfl, rfl, rfl, rfl, rfl, rfl, rfl, rfl, rfl, rfl, rfl, rfl, rfl⟩

/-- With no mark in the store every mark is in its slice. -/
theorem MarksInv.reset : MarksInv State.reset := by
  intro w
  refine ⟨fun _ => rfl, ?_, fun n hn _ => ?_⟩
  · change (0#4 &&& ~~~0#4) = 0
    decide
  · rw [reset_win] at hn
    exact absurd hn Bool.false_ne_true

/-- Settles O8: the reset state holds nothing that an invariant could forbid. -/
theorem invariantsAtReset : Obligations.InvariantsAtReset :=
  ⟨.of_not_held rfl, by decide, by decide, by decide, .reset, Store.wf_reset⟩

/-! ## The Controller Port across a reset -/

/-- A held access is released as a pass in IDLE, and an ended one stays (R4). -/
theorem takeHeld_of_cpHeld {c : CpState} (h : CpHeld c) : takeHeld c = match (generalizing := false) c with
    | .outstanding o => .outstanding ⟨o.access, .plain, .service .pass, false⟩
    | c => c := by
  cases c with
  | outstanding o => simp only [takeHeld, h.2.1, if_true]
  | _ => rfl

/-- POWER-ON latches over a cause unit in its reset state. -/
theorem latchPowerOn_of_reset {t : State} (h : t.causes = CauseUnit.reset) : latchPowerOn t = t.setCauses State.reset.causes := by
  have hf : CauseUnit.reset.setFlag .powerOn = State.reset.causes := by decide
  rw [latchPowerOn, h, hf]

/-- Settles O5: the two forms of power-on, by whether RESET is asserted. -/
theorem powerOnResult : Obligations.PowerOnResult := by
  intro pins s
  constructor
  · intro hr
    simp only [exec, execPowerOn, hr, Bool.false_eq_true, if_false]
    rw [latchPowerOn_of_reset rfl]
    cases s.cp <;> rfl
  · intro hr
    simp only [exec, execPowerOn, hr, if_true]
    cases s.cp <;> rfl

/-- Settles O6: the assertion resets every block; the negation finds them so, by the invariant of O9. -/
theorem resetLinesResult : Obligations.ResetLinesResult := by
  refine ⟨fun s => ?asserted, fun straps sel s => ⟨fun hr hi => ?negated, fun hr => ?nothing⟩⟩
  case asserted =>
    simp only [exec, execResetInputAsserted]
    cases s.cp <;> rfl
  case negated =>
    obtain ⟨hs, hc⟩ := (heldInv_iff s).1 hi hr
    have hcp := takeHeld_of_cpHeld hc
    simp only [exec, execResetInputNegated, hr, if_true, State.setIdentity_cp, State.setLines_cp, hcp]
    rw [latchPowerOn_of_reset (by rw [hs]; rfl)]
    conv_lhs => rw [hs]
    rfl
  case nothing => simp only [exec, execResetInputNegated, hr, Bool.false_eq_true, if_false]

/-! ## The RESET command -/

/-- An access that waits passes as in IDLE, once the end of its own Memory Port access is past (R174). -/
theorem resetCp_eq (c : CpState) : resetCp c = match c with
    | .outstanding o => .outstanding ⟨o.access, o.cls,
        if o.wait = .begun ∨ o.wait = .shared ∨ o.wait = .afterDiscard then .afterDiscard else .service .pass, false⟩
    | c => c := by
  cases c with
  | outstanding o =>
    obtain ⟨a, c, w, e⟩ := o
    cases w <;> simp [resetCp]
  | _ => rfl

theorem resetTaken_eq (straps : BitVec 3) (s : State) : resetTaken straps s = afterReset straps Management.reset s := by
  unfold resetTaken afterReset
  rw [resetCp_eq]
  rfl

theorem receiving_iff (s : State) : receiving s = true ↔ s.lines.resetHeld = false ∧ s.mg.frame ≠ .abandoned := by
  simp [receiving]

/-- Settles O7: the argument decides, and a RESET taken leaves the reset state but for the lines, the straps and the two ports. -/
theorem resetCommandResult : Obligations.ResetCommandResult := by
  intro v straps s
  have unicast : Listening s → exec (.reset .unicast v straps) s = .next (takeReset v straps s) :=
    fun hl => congrArg Host.Outcome.next (request_of_listening hl (takeReset v straps))
  have broadcast : s.lines.resetHeld = false → s.mg.frame ≠ .abandoned →
      exec (.reset .broadcast v straps) s = .next (resetBroadcast v straps s) := fun hr hf => by
    change Host.Outcome.next (if receiving s then resetBroadcast v straps s else s) = _
    rw [if_pos ((receiving_iff s).2 ⟨hr, hf⟩)]
  refine ⟨fun hl hv => ?taken, fun hl hv => ?refused, fun hr hf hv => ?takenAll, fun hr hf hv => ?refusedAll⟩
  case taken =>
    rw [unicast hl, takeReset, if_pos (show v = Config.resetArgument from hv), resetTaken_eq]
    rfl
  case refused =>
    rw [unicast hl, takeReset, if_neg (show v ≠ Config.resetArgument from hv)]
    rfl
  case takenAll => rw [broadcast hr hf, resetBroadcast, if_pos (show v = Config.resetArgument from hv), resetTaken_eq]
  case refusedAll => rw [broadcast hr hf, resetBroadcast, if_neg (show v ≠ Config.resetArgument from hv)]

/-! ## Requests that are not taken -/

/-- A request whose rule tests for a command in flight. -/
theorem unlessBusy_in_flight {s : State} (hc : s.mg.command ≠ none) (f : State → State) :
    unlessBusy f s = s.setMg ({ s.mg with collision := true }.replied .busy 0) := by
  rcases unlessBusy_cases f s with ⟨-, e⟩ | ⟨hn, -⟩
  · exact e
  · exact absurd hn hc

/-- A defined command other than RESET tests for a command in flight (R166 step 4). -/
theorem giveCommand_in_flight {c : Command} (h : c ≠ .reset) (v : Word) (straps : BitVec 3) {s : State}
    (hc : s.mg.command ≠ none) : giveCommand c v straps s = s.setMg ({ s.mg with collision := true }.replied .busy 0) := by
  cases c
  case reset => exact absurd rfl h
  all_goals exact unlessBusy_in_flight hc _

theorem takeWrite_in_flight {number : Byte} (h : (Item.ofNumber number).isSome = true) (v : Word) {s : State}
    (hc : s.mg.command ≠ none) : takeWrite number v s = s.setMg ({ s.mg with collision := true }.replied .busy 0) := by
  obtain ⟨it, hit⟩ := Option.isSome_iff_exists.1 h
  simp only [takeWrite, hit]
  exact unlessBusy_in_flight hc _

theorem takeGeneral_command_in_flight {code : Byte} (h : ((Command.ofCode code).any fun c => decide (c ≠ .reset)) = true)
    (v : Word) (straps : BitVec 3) {s : State} (hc : s.mg.command ≠ none) :
    takeGeneral (.command straps) code v s = s.setMg ({ s.mg with collision := true }.replied .busy 0) := by
  cases hcode : Command.ofCode code with
  | none => simp [hcode] at h
  | some c =>
    simp only [takeGeneral, hcode]
    exact giveCommand_in_flight (by simpa [hcode] using h) v straps hc

/-- The requests that a command in flight makes BUSY. -/
theorem effect_busy {c : Instr} (h : isBusyTested c = true) {s : State} (hl : Listening s) (hc : s.mg.command ≠ none) :
    effect c s = s.setMg ({ s.mg with collision := true }.replied .busy 0) := by
  have guardedBusy : ∀ f : State → State, guarded f s = s.setMg ({ s.mg with collision := true }.replied .busy 0) :=
    guarded_in_flight hl hc
  cases c
  case writeItem number v =>
    exact (request_of_listening hl _).trans (takeWrite_in_flight h v hc)
  case unknownRequest op number v =>
    refine (request_of_listening hl _).trans ?_
    cases op with
    | readItem => exact absurd h Bool.false_ne_true
    | writeItem => exact takeWrite_in_flight h v hc
    | command straps => exact takeGeneral_command_in_flight h v straps hc
  case safe via v =>
    cases via
    · exact guardedBusy takeSafe
    · exact absurd h Bool.false_ne_true
  case start v => exact guardedBusy takeStart
  case stop v => exact guardedBusy takeStop
  case resume v => exact guardedBusy takeResume
  case freeze v => exact guardedBusy (takeFreeze v)
  case thaw v => exact guardedBusy (takeThaw v)
  case commitWindow v => exact guardedBusy (takeWindowCommand v .commitWindow)
  case dropWindow v => exact guardedBusy (takeWindowCommand v .dropWindow)
  case unlock v => exact guardedBusy (takeUnlock v)
  case clearLongest v => exact guardedBusy takeClearLongest
  case causesWrite v => exact guardedBusy (putCauses v)
  case windowDescriptorWrite n part v => exact guardedBusy (putDescriptor n part v)
  case markAddressWrite v => exact guardedBusy (putMark v)
  case markerAddressWrite v => exact guardedBusy (putMarker v)
  case watchdogPeriodWrite v => exact guardedBusy (putWatchdog v)
  case prescaleWrite v => exact guardedBusy (putPrescale v)
  case stageLowThresholdWrite v => exact guardedBusy (putThreshold v)
  case freezeTimerWrite v => exact guardedBusy (putFreezeTimer v)
  case qualifyWrite c v => exact guardedBusy (putQualify c v)
  case actionsWrite v => exact guardedBusy (putActions v)
  case priorityListAWrite v => exact guardedBusy (putPriorityA v)
  case priorityListBWrite v => exact guardedBusy (putPriorityB v)
  case quietMarkWrite v => exact guardedBusy (putQuietMark v)
  case forceWrite v => exact guardedBusy (putForce v)
  case resumePolicyWrite v => exact guardedBusy (putPolicy v)
  case lockWrite v => exact guardedBusy (putLock v)
  case imagePointerWrite v => exact guardedBusy (putPointer v)
  case imageDataWrite v => exact guardedBusy (putImageData v)
  all_goals exact absurd h Bool.false_ne_true

/-- Settles O3: a request that is not for the bridge is never taken, and one that is tested finds the command in flight first. -/
theorem requestsNotTaken : Obligations.RequestsNotTaken := by
  refine ⟨fun c s hq hn => ?notOurs, fun c s hb hl hc => ?busy⟩
  case notOurs =>
    rw [exec_eq_next_effect]
    rcases effect_request_cases hq s with ⟨-, e⟩ | ⟨hl, -⟩
    · rw [e]
    · exact absurd hl hn
  case busy => rw [exec_eq_next_effect, effect_busy hb hl hc]

end Sys2Proof.Machine
end

section
/-! PROOF. What the events do to the window table and the image store: which changes of the store there are, and that every event but a
change of the table, a reset and a write of the mark makes only these. -/

namespace Sys2Proof.Machine

/-! ## The changes of the image store -/

/-- Owed on valid bytes alone, lane by lane (4.2). -/
theorem owed_within_valid_iff (o v : Lanes) : o &&& ~~~v = 0 ↔ ∀ i : Fin 4, o[i] = true → v[i] = true := by
  constructor
  · intro h i ho
    have hi : (o &&& ~~~v)[i] = false := by rw [h]; simp
    simp only [Fin.getElem_fin] at ho hi ⊢
    simpa [ho] using hi
  · intro h
    ext i hi
    have := h ⟨i, hi⟩
    simp only [Fin.getElem_fin] at this
    cases ho : o[i] <;> simp_all

/-- A change of the marks of a word in an output slice: HELD and FRESH stay, and owed stays within valid. -/
structure OutputMarks (f : Marks → Marks) : Prop where
  held : ∀ m, (f m).held = m.held
  fresh : ∀ m, (f m).fresh = m.fresh
  owed : ∀ m : Marks, m.owed &&& ~~~m.valid = 0 → (f m).owed &&& ~~~(f m).valid = 0

theorem OutputMarks.settle (l : Lanes) : OutputMarks (Marks.settle l) where
  held _ := rfl
  fresh _ := rfl
  owed m h := by
    rw [owed_within_valid_iff] at h ⊢
    intro i hi
    have := h i
    simp_all [Marks.settle]

theorem OutputMarks.owe (l : Lanes) : OutputMarks (Marks.owe l) where
  held _ := rfl
  fresh _ := rfl
  owed m h := by
    rw [owed_within_valid_iff] at h ⊢
    intro i hi
    simp only [Marks.owe, Fin.getElem_fin, BitVec.getElem_or, Bool.or_eq_true] at hi h ⊢
    exact hi.imp_left (h i)

theorem OutputMarks.oweBack (l : Lanes) : OutputMarks (Marks.oweBack l) where
  held _ := rfl
  fresh _ := rfl
  owed m h := by
    rw [owed_within_valid_iff] at h ⊢
    intro i hi
    simp only [Marks.oweBack, Fin.getElem_fin, BitVec.getElem_or, BitVec.getElem_and, Bool.or_eq_true, Bool.and_eq_true] at hi h ⊢
    exact hi.elim (h i) And.right

theorem OutputMarks.clearOwed (l : Lanes) : OutputMarks (Marks.clearOwed l) where
  held _ := rfl
  fresh _ := rfl
  owed m h := by
    rw [owed_within_valid_iff] at h ⊢
    intro i hi
    have := h i
    simp_all [Marks.clearOwed]

/-- The changes of the image store under a window table: data, the marks of a word in a slice of the right kind, marks taken away, and
owed set on valid bytes. -/
inductive Remarked (ws : Windows) : Store → Store → Prop
  | refl (st : Store) : Remarked ws st st
  | trans {st su sv : Store} (h : Remarked ws st su) (h' : Remarked ws su sv) : Remarked ws st sv
  | lanes (st : Store) (w : Nat) (l : Lanes) (v : Word) : Remarked ws st (st.writeLanes w l v)
  | sampled (st : Store) {n : WinIdx} {a : Addr} {w : Nat} (f : Bool) (h : imageWord ws .input n a = some w) :
      Remarked ws st (st.mark w (Marks.sampled f))
  | output (st : Store) {n : WinIdx} {a : Addr} {w : Nat} {f : Marks → Marks} (h : imageWord ws .output n a = some w)
      (hf : OutputMarks f) : Remarked ws st (st.mark w f)
  | clearFresh (st : Store) (p : Nat → Bool) : Remarked ws st (st.clearFresh p)
  | clearMarks (st : Store) (p : Nat → Bool) : Remarked ws st (st.clearMarks p)
  | oweValid (st : Store) (p : Nat → Bool) : Remarked ws st (st.oweValid p)

/-- Every such change keeps the canonical form (log 26). -/
theorem Remarked.wf {ws : Windows} {st su : Store} (h : Remarked ws st su) (hw : st.wf) : su.wf := by
  induction h with
  | refl st => exact hw
  | trans _ _ ih ih' => exact ih' (ih hw)
  | lanes st w l v => exact Store.wf_writeLanes hw w l v
  | sampled st f h => exact Store.wf_mark hw _ _
  | output st h hf => exact Store.wf_mark hw _ _
  | clearFresh st p => exact Store.wf_clearFresh hw p
  | clearMarks st p => exact Store.wf_clearMarks hw p
  | oweValid st p => exact Store.wf_oweValid hw p

/-- The window table, as the store's words are found by it. -/
abbrev SameTable (ws vs : Windows) : Prop := ∀ n : WinIdx, (vs[n]).record = (ws[n]).record ∧ (vs[n]).defined = (ws[n]).defined

theorem imageWord_congr {ws vs : Windows} (h : SameTable ws vs) (k : Kind) (n : WinIdx) (a : Addr) :
    imageWord vs k n a = imageWord ws k n a := by
  unfold imageWord Window.covers Window.imageAt Window.placeOf
  rw [(h n).1, (h n).2]

theorem Remarked.congr {ws vs : Windows} (h : SameTable ws vs) {st su : Store} (hr : Remarked vs st su) : Remarked ws st su := by
  induction hr with
  | refl st => exact .refl st
  | trans _ _ ih ih' => exact .trans ih ih'
  | lanes st w l v => exact .lanes st w l v
  | sampled st f hi => exact .sampled st f (imageWord_congr h .. ▸ hi)
  | output st hi hf => exact .output st (imageWord_congr h .. ▸ hi) hf
  | clearFresh st p => exact .clearFresh st p
  | clearMarks st p => exact .clearMarks st p
  | oweValid st p => exact .oweValid st p

/-! ## A state that evolves under its table -/

/-- The window table, the mark and the marker are as they were, and the image has changed in these ways alone. -/
structure Evolves (s t : State) : Prop where
  table : SameTable s.win t.win
  mark : t.mark = s.mark
  marker : t.marker = s.marker
  image : Remarked s.win s.image t.image

theorem Evolves.refl (s : State) : Evolves s s := ⟨fun _ => ⟨rfl, rfl⟩, rfl, rfl, .refl _⟩

theorem Evolves.trans {s t u : State} (h : Evolves s t) (h' : Evolves t u) : Evolves s u where
  table n := ⟨(h'.table n).1.trans (h.table n).1, (h'.table n).2.trans (h.table n).2⟩
  mark := h'.mark.trans h.mark
  marker := h'.marker.trans h.marker
  image := h.image.trans (h'.image.congr h.table)

/-- What touches none of the four fields. -/
theorem Evolves.of_same {s t : State} (hw : t.win = s.win) (hm : t.mark = s.mark) (hk : t.marker = s.marker)
    (hi : t.image = s.image) : Evolves s t := by
  refine ⟨fun n => ?_, hm, hk, ?_⟩
  · rw [hw]; exact ⟨rfl, rfl⟩
  · rw [hi]; exact .refl _

/-- What touches the image alone. -/
theorem Evolves.of_image {s t : State} (hw : t.win = s.win) (hm : t.mark = s.mark) (hk : t.marker = s.marker)
    (hi : Remarked s.win s.image t.image) : Evolves s t :=
  ⟨fun n => by rw [hw]; exact ⟨rfl, rfl⟩, hm, hk, hi⟩

/-- What touches the freeze states and descriptors alone. -/
theorem Evolves.of_table {s t : State} (hw : SameTable s.win t.win) (hm : t.mark = s.mark) (hk : t.marker = s.marker)
    (hi : t.image = s.image) : Evolves s t :=
  ⟨hw, hm, hk, by rw [hi]; exact .refl _⟩

theorem setCauses_evolves (u : CauseUnit) (s : State) : Evolves s (s.setCauses u) := .of_same rfl rfl rfl rfl

theorem setMp_evolves (p : Option PortAccess) (s : State) : Evolves s (s.setMp p) := .of_same rfl rfl rfl rfl

theorem endAccess_evolves (ok : Bool) (d : Word) (s : State) : Evolves s (endAccess ok d s) := .of_same rfl rfl rfl rfl

theorem SameTable.settlePending (ws : Windows) : SameTable ws (settlePending ws) := fun n => by
  rw [settlePending_get]; exact ⟨rfl, rfl⟩

theorem SameTable.setFreezeState (ws : Windows) (n : WinIdx) (f : Freeze) : SameTable ws (setFreezeState ws n f) := fun m =>
  ⟨(setFreezeState_rest ws n m f).1, (setFreezeState_rest ws n m f).2.2⟩

/-! ## SAFE entry and latching -/

@[simp] theorem setWindows_win (ws : Windows) (s : State) : (setWindows ws s).win = ws := rfl

theorem enterSafe_win (s : State) : (enterSafe s).win = settlePending s.win := by
  simp [enterSafe, safeFreeze]

theorem enterSafe_evolves (s : State) : Evolves s (enterSafe s) :=
  .of_table (enterSafe_win s ▸ SameTable.settlePending s.win) (by simp) (by simp) (by simp)

theorem latch_evolves (c : Cause) (s : State) : Evolves s (latch c s) := by
  rcases latch_cases c s with e | e | ⟨-, e⟩ | ⟨-, -, e⟩ <;> rw [e]
  · exact .refl s
  · exact setCauses_evolves _ s
  · exact (setCauses_evolves _ s).trans (enterSafe_evolves _)
  · exact .of_same (by simp) (by simp) (by simp) (by simp)

theorem followLevel_evolves (c : LevelCause) (s : State) : Evolves s (followLevel c s) := by
  rcases followLevel_cases c s with e | ⟨u, e⟩ <;> rw [e]
  · exact latch_evolves _ s
  · exact .of_same rfl rfl rfl rfl

/-! ## The image written by an access -/

theorem storeSample_evolves (n : WinIdx) (a : Addr) (v : Word) (f : Bool) (s : State) : Evolves s (storeSample n a v f s) := by
  refine .of_image (by simp) (by simp) (by simp) ?_
  unfold storeSample
  split
  · exact .trans (.lanes _ _ _ _) (.sampled _ f ‹_›)
  · exact .refl _

theorem writeImage_evolves (n : WinIdx) (a : Addr) (l : Lanes) (v : Word) {f : Marks → Marks} (hf : OutputMarks f) (s : State) :
    Evolves s (writeImage n a l v f s) := by
  refine .of_image (by simp) (by simp) (by simp) ?_
  unfold writeImage
  split
  · exact .trans (.lanes _ _ _ _) (.output _ ‹_› hf)
  · exact .refl _

theorem clearOwedAt_evolves (n : WinIdx) (a : Addr) (l : Lanes) (s : State) : Evolves s (clearOwedAt n a l s) := by
  refine .of_image (by simp) (by simp) (by simp) ?_
  unfold clearOwedAt
  split
  · exact .output _ ‹_› (.clearOwed l)
  · exact .refl _

theorem carryOut_evolves (t : Treatment) (o : Outstanding) (s : State) : Evolves s (carryOut t o s) := by
  cases t
  case imageOwed n =>
    exact (writeImage_evolves n _ _ _ (.owe _) s).trans (.of_same rfl rfl rfl rfl)
  all_goals exact .of_same (by simp) (by simp) (by simp) (carryOut_image (by simp) o s)

/-! ## Marks and boundaries -/

theorem walkBegin_evolves (ws : Windows) (s : State) : Evolves s (walkBegin ws s) :=
  .of_image (by simp) (by simp) (by simp) (.clearFresh _ _)

theorem walkStop_evolves (s : State) : Evolves s (walkStop s) :=
  .of_image (by simp) (by simp) (by simp) (.clearFresh _ _)

theorem firstMark_evolves (s : State) : Evolves s (firstMark s) := by
  unfold firstMark
  refine Evolves.trans ?_ (walkBegin_evolves s.win _)
  exact .of_same rfl rfl rfl rfl

/-- A fold of changes is a change. -/
theorem Remarked.foldl {ws : Windows} {α : Type} {g : Store → α → Store} (hg : ∀ st x, Remarked ws st (g st x)) (l : List α)
    (st : Store) : Remarked ws st (l.foldl g st) := by
  induction l generalizing st with
  | nil => exact .refl st
  | cons x l ih => exact (hg st x).trans (ih _)

theorem markEntry_remarked (ws : Windows) (e : Entry) {f : Marks → Marks} (hf : OutputMarks f) (st : Store) :
    Remarked ws st (markEntry ws e f st) := by
  unfold markEntry
  split
  · exact .output _ ‹_› hf
  · exact .refl _

theorem commitEntry_remarked (ws : Windows) (st : Store) (e : Entry) : Remarked ws st (commitEntry ws st e) := by
  unfold commitEntry
  split
  · refine .trans (.lanes _ _ _ _) (.output _ ‹_› ?_)
    split
    · exact .owe _
    · exact .settle _
  · exact .refl _

theorem boundaryImage_remarked (s : State) : Remarked s.win s.image (boundaryImage s) := by
  have flight : ∀ st, Remarked s.win st (purgeFlight s.win s.mp st) := by
    intro st
    unfold purgeFlight
    (repeat' split)
    all_goals first | exact .refl _ | exact markEntry_remarked _ _ (.oweBack _) _
  refine .trans (.foldl (commitEntry_remarked s.win) s.pool.openStage _) (.trans ?_ (flight _))
  exact .foldl (fun st e => markEntry_remarked _ e (.oweBack _) st) _ _

theorem boundary_evolves (s : State) : Evolves s (boundary s) := by
  have pool : Evolves s (boundaryPool s) := .of_image (by simp) (by simp) (by simp) (by
    simpa [boundaryPool] using boundaryImage_remarked s)
  have freeze : Evolves (boundaryPool s) (boundaryFreeze (boundaryPool s)) :=
    .of_table (SameTable.settlePending _) (by simp) (by simp) (by simp)
  have control : Evolves (boundaryFreeze (boundaryPool s)) (boundaryControl (boundaryFreeze (boundaryPool s))) :=
    .of_same (by simp) (by simp) (by simp) (by simp)
  have walk : ∀ u, Evolves u (boundaryWalk s.ctl.stopPending s.win u) := fun u => by
    unfold boundaryWalk
    split
    · exact walkStop_evolves u
    · exact walkBegin_evolves s.win u
  have whole := ((pool.trans freeze).trans control).trans (walk _)
  unfold boundary
  dsimp only
  split
  · exact whole.trans (.of_same (by simp) (by simp) (by simp) (by simp))
  · exact whole

/-! ## Routing -/

theorem waitFor_evolves (w : Wait) (o : Outstanding) (s : State) : Evolves s (waitFor w o s) := .of_same rfl rfl rfl rfl

theorem grantController_evolves (s : State) : Evolves s (grantController s) :=
  .of_same (by simp) (by simp) (by simp) (by simp)

theorem tornWrite_evolves (g : Bool) (n : WinIdx) (o : Outstanding) (s : State) : Evolves s (tornWrite g n o s) := by
  have torn : Evolves s (markTorn s) := .of_same rfl rfl rfl rfl
  unfold tornWrite
  dsimp only
  split
  · exact ((torn.trans (writeImage_evolves n _ _ _ (.owe _) _)).trans (endAccess_evolves _ _ _)).trans (latch_evolves _ _)
  · refine Evolves.trans ?_ (latch_evolves _ _)
    have waits := torn.trans (waitFor_evolves (.service .torn) o.took _)
    split
    · exact waits.trans (grantController_evolves _)
    · exact waits

theorem stageWrite_evolves (g : Bool) (n : WinIdx) (o : Outstanding) (s : State) : Evolves s (stageWrite g n o s) := by
  unfold stageWrite
  dsimp only
  (repeat' split)
  · exact .of_same rfl rfl rfl rfl
  · exact .of_same rfl rfl rfl rfl
  · exact .of_same rfl rfl rfl rfl
  · exact tornWrite_evolves g n o s

theorem boundaryMark_evolves (o : Outstanding) (s : State) : Evolves s (waitFor (.service .pass) o.took (boundary s)) :=
  (boundary_evolves s).trans (waitFor_evolves _ _ _)

theorem markInRun_evolves (o : Outstanding) (s : State) : Evolves s (markInRun o s) := by
  unfold markInRun
  dsimp only
  (repeat' split)
  · exact (waitFor_evolves _ o s).trans (latch_evolves _ _)
  · exact (boundaryMark_evolves o s).trans (latch_evolves _ _)
  · exact boundaryMark_evolves o s

theorem route_evolves (g : Bool) (o : Outstanding) (s : State) : Evolves s (route g o s) := by
  have noted : Evolves s (waitFor (.service .pass) o.took s) := waitFor_evolves _ _ _
  unfold route
  dsimp only
  (repeat' split)
  · exact waitFor_evolves _ _ s
  · exact (firstMark_evolves s).trans (waitFor_evolves _ _ _)
  · exact waitFor_evolves _ _ s
  · exact markInRun_evolves o s
  · exact waitFor_evolves _ _ s
  · exact (noted.trans (grantController_evolves _)).trans (latch_evolves _ _)
  · exact noted.trans (latch_evolves _ _)
  · exact .of_same rfl rfl rfl rfl
  · exact (endAccess_evolves true 0 s).trans (latch_evolves _ _)
  · exact .refl s
  · exact stageWrite_evolves g _ o s
  · exact carryOut_evolves _ o s

theorem reroute_evolves (b s : State) : Evolves s (reroute b s) := by
  unfold reroute
  (repeat' split)
  · exact route_evolves false _ s
  · exact .refl s
  · exact .refl s

/-! ## The release engine -/

theorem seekReissue_remarked (ws : Windows) (l : List WinIdx) (off : Nat) (st : Store) :
    Remarked ws st (seekReissue ws l off st).1 := by
  induction l generalizing off st with
  | nil => exact .refl st
  | cons n l ih =>
    unfold seekReissue
    (repeat' split)
    · exact ih 0 st
    · exact (Remarked.oweValid st _).trans (ih 0 _)
    · exact .refl st
    · exact ih 0 st

theorem reissueFrom_evolves (n : WinIdx) (off : Nat) (s : State) : Evolves s (reissueFrom n off s) := by
  refine .of_image (by simp) (by simp) (by simp) ?_
  have := seekReissue_remarked s.win (allWin.filter fun m => decide (n ≤ m)) off s.image
  unfold reissueFrom
  split <;> simp_all

theorem reissueOn_evolves (s : State) : Evolves s (reissueOn s) := by
  unfold reissueOn
  split
  · exact reissueFrom_evolves _ _ s
  · exact .refl s

theorem reissuePast_evolves (s : State) : Evolves s (reissuePast s) := by
  have past : ∀ r, Evolves s (s.setReissue r) := fun r => .of_same rfl rfl rfl rfl
  unfold reissuePast
  dsimp only
  split
  · exact past _
  · exact (past _).trans (reissueOn_evolves _)

theorem fillOn_evolves (s : State) : Evolves s (fillOn s) := by
  have fill : ∀ f, Evolves s (s.setFill f) := fun f => .of_same rfl rfl rfl rfl
  unfold fillOn
  (repeat' split)
  · exact .refl s
  · exact fill _
  · exact fill _
  · exact (fill _).trans (reissueOn_evolves _)
  · exact fill _

theorem goOn_evolves (o : Owner) (s : State) : Evolves s (goOn o s) := by
  have settle : Evolves s (settleHead s) := .of_same (by simp) (by simp) (by simp) (by simp)
  have flush : Evolves s (flushOn s) := .of_same (by simp) (by simp) (by simp) (by simp)
  unfold goOn
  (repeat' split)
  all_goals first
    | exact .refl s
    | exact settle
    | exact flush
    | exact fillOn_evolves s
    | exact reissuePast_evolves s
    | exact .of_same (by simp) (by simp) (by simp) (by simp)

/-! ## The Memory Port -/

theorem grantFill_evolves (s : State) : Evolves s (grantFill s) := by
  unfold grantFill
  dsimp only
  (repeat' split)
  all_goals first
    | exact fillOn_evolves s
    | exact .of_same (by simp) (by simp) (by simp) (by simp)

theorem grantReissue_evolves (s : State) : Evolves s (grantReissue s) := by
  unfold grantReissue
  dsimp only
  (repeat' split)
  all_goals first
    | exact reissuePast_evolves s
    | exact .of_same (by simp) (by simp) (by simp) (by simp)

theorem grantPort_evolves (s : State) : Evolves s (grantPort s) := by
  have release : Evolves s (grantRelease s) := by
    unfold grantRelease
    split
    · exact .refl s
    · exact .of_same (by simp) (by simp) (by simp) (by simp)
    · exact grantFill_evolves s
    · exact grantReissue_evolves s
  unfold grantPort
  (repeat' split)
  · exact .refl s
  · exact grantController_evolves s
  · exact release
  · exact .of_same (by simp) (by simp) (by simp) (by simp)
  · exact .refl s

theorem passAnew_evolves (s : State) : Evolves s (passAnew s) := by
  unfold passAnew
  (repeat' split)
  · exact route_evolves false _ s
  · exact .refl s
  · exact .refl s

theorem freeHeadEntry_evolves (s : State) : Evolves s (freeHeadEntry s) := .of_same (by simp) (by simp) (by simp) (by simp)

theorem endShared_evolves (ok : Bool) (d : Word) (s : State) : Evolves s (endShared ok d s) :=
  .of_same (by simp) (by simp) (by simp) (by simp)

theorem ownerEnd_evolves (p : PortAccess) (ok : Bool) (d : Word) (s : State) : Evolves s (ownerEnd p ok d s) := by
  have sampled : ∀ n f, Evolves s (if ok then storeSample n p.addr d f s else s) := fun n f => by
    split
    · exact storeSample_evolves n _ d f s
    · exact .refl s
  have settled : ∀ n, Evolves s (endAccess ok 0 (writeImage n p.addr p.enables p.data (Marks.settle p.enables) s)) := fun n =>
    (writeImage_evolves n _ _ _ (.settle _) s).trans (.of_same rfl rfl rfl rfl)
  unfold ownerEnd
  split
  · exact .of_same rfl rfl rfl rfl
  · exact settled _
  · exact settled _
  · exact .of_same rfl rfl rfl rfl
  · exact (sampled _ true).trans (.of_same rfl rfl rfl rfl)
  · exact (clearOwedAt_evolves _ _ _ s).trans (freeHeadEntry_evolves _)
  · exact .refl s
  · exact clearOwedAt_evolves _ _ _ s
  · split
    · exact .refl s
    · exact clearOwedAt_evolves _ _ _ s
  · exact clearOwedAt_evolves _ _ _ s
  · exact clearOwedAt_evolves _ _ _ s
  · exact .refl s
  · exact .refl s
  · exact .refl s
  · exact (sampled _ _).trans (endShared_evolves ok d _)
  · exact passAnew_evolves s

theorem accessEnded_evolves (ok : Bool) (d : Word) (s : State) : Evolves s (accessEnded ok d s) := by
  unfold accessEnded
  split
  · exact .refl s
  · rename_i p _
    refine Evolves.trans ?_ (followLevel_evolves _ _)
    have ended : Evolves s (ownerEnd p ok d (s.setMp none)) :=
      (setMp_evolves none s).trans (ownerEnd_evolves p ok d _)
    have latched : Evolves s (if ok then ownerEnd p ok d (s.setMp none) else latch .memory (ownerEnd p ok d (s.setMp none))) := by
      split
      · exact ended
      · exact ended.trans (latch_evolves _ _)
    have gone : ∀ (c : Prop) [Decidable c] (u : State), Evolves s u → Evolves s (if c then goOn p.owner u else u) :=
      fun c _ u h => by
        split
        · exact h.trans (goOn_evolves _ _)
        · exact h
    exact gone _ _ latched

/-! ## Retirement -/

theorem releaseMark_evolves (o : Outstanding) (s : State) : Evolves s (releaseMark o s) := by
  unfold releaseMark stalledBoundary
  dsimp only
  (repeat' split)
  · exact ((boundaryMark_evolves o s).trans (latch_evolves _ _)).trans (followLevel_evolves _ _)
  · exact (boundaryMark_evolves o s).trans (followLevel_evolves _ _)
  · exact .refl s

theorem retireWhole_evolves (s : State) : Evolves s (retireWhole s) := by
  have retired : Evolves s (retire s) := .of_same (by simp) (by simp) (by simp) (by simp)
  unfold retireWhole afterRetirement
  (repeat' split)
  · exact retired.trans (releaseMark_evolves _ _)
  · exact retired.trans (reroute_evolves s _)
  · exact retired

/-! ## Freezing -/

theorem freezeWindow_evolves (n : WinIdx) (s : State) : Evolves s (freezeWindow n s) := by
  have hw : (freezeWindow n s).win = setFreezeState s.win n (freezeTo s.ctl.mode (s.win[n]).freeze) := by
    unfold freezeWindow
    dsimp only
    split <;> rfl
  exact .of_table (hw ▸ SameTable.setFreezeState _ _ _) (by simp) (by simp) (by simp)

theorem thawWindow_evolves (n : WinIdx) (s : State) : Evolves s (thawWindow n s) := by
  have hw : (thawWindow n s).win = setFreezeState s.win n (thawTo s.ctl.mode (s.win[n]).freeze) := by
    unfold thawWindow
    dsimp only
    (repeat' split) <;> simp
  exact .of_table (hw ▸ SameTable.setFreezeState _ _ _) (by simp) (by simp) (by simp)

theorem thawAll_evolves (l : List WinIdx) (s : State) : Evolves s (thawAll l s) := by
  unfold thawAll
  refine Evolves.trans (.of_table (fun n => ?_) ?_ ?_ ?_) (reroute_evolves s _)
  · have : ∀ w : Window, (if n ∈ l then { w with freeze := thawTo s.ctl.mode w.freeze } else w).record = w.record ∧
        (if n ∈ l then { w with freeze := thawTo s.ctl.mode w.freeze } else w).defined = w.defined := fun w => by
      split <;> exact ⟨rfl, rfl⟩
    cases hm : s.ctl.mode <;> rw [hm] at this <;> simpa using this s.win[n]
  all_goals cases s.ctl.mode <;> simp

theorem freezeExpiry_evolves (b : Bool) (s : State) : Evolves s (freezeExpiry b s) := by
  have stopped : Evolves s (s.setFreeze { s.freeze with running := false }) := .of_same rfl rfl rfl rfl
  unfold freezeExpiry
  dsimp only
  split
  · exact (stopped.trans (latch_evolves _ _)).trans (thawAll_evolves _ _)
  · exact (stopped.trans (thawAll_evolves _ _)).trans (latch_evolves _ _)

end Sys2Proof.Machine
end

section
/-! PROOF. The invariants of the window table and the image store, over every step: the canonical form, the checks of COMMIT WINDOW between
the windows, and each mark in a slice of its kind (R7, R10, R58, log 26). -/

namespace Sys2Proof.Machine

/-! ## What a command does to the table and the store -/

theorem startRun_evolves (s : State) : Evolves s (startRun s) := by
  exact .of_image rfl rfl rfl (.clearMarks _ _)

theorem beginReissue_evolves (s : State) : Evolves s (beginReissue s) := by
  unfold beginReissue
  refine Evolves.trans ?_ (reissueFrom_evolves 0 0 _)
  exact .of_same rfl rfl rfl rfl

theorem ackReply_evolves (s : State) : Evolves s (ackReply s) := .of_same rfl rfl rfl rfl

theorem complete_evolves (r : Reason) (s : State) : Evolves s (complete r s) := .of_same rfl rfl rfl rfl

theorem setTiming_evolves (x : Timing) (s : State) : Evolves s (s.setTiming x) := .of_same rfl rfl rfl rfl

theorem answer_evolves (a : Status) (d : Word) (s : State) : Evolves s (answer a d s) := .of_same rfl rfl rfl rfl

/-- A state with no window, no mark and no byte, as every reset leaves them. -/
structure Blank (t : State) : Prop where
  win : t.win = State.reset.win
  image : t.image = State.reset.image

/-- A mark address or a marker address that the window table allows is put into effect (R10). -/
inductive Remapped (s : State) : State → Prop
  | mark (m : BusMark) (h : findWin s.win m.addr = none) : Remapped s (ackReply (s.setMark m))
  | marker (m : BusMark) (h : m.enabled = true → findWin s.win m.addr = none) : Remapped s (ackReply (s.setMarker m))

theorem putWindow_win (n m : WinIdx) (w : Window) (s : State) :
    (putWindow n w s).win[m] = if m = n then w else s.win[m] := by
  unfold putWindow
  by_cases h : m = n
  · subst h; simp
  · have : (n : Nat) ≠ m := fun e => h (Fin.ext e.symm)
    simp [h, this]

/-- Only the descriptor of a window is replaced. -/
theorem putDescriptor_evolves (n : WinIdx) (d : Fields) (s : State) :
    Evolves s (putWindow n { s.win[n] with descriptor := d } s) := by
  refine .of_table (fun m => ?_) (by simp) (by simp) (by simp)
  rw [putWindow_win]
  by_cases h : m = n
  · subst h; simp
  · simp [h]

theorem Written.evolves {s t : State} (h : Written s t) : Evolves s t ∨ Remapped s t := by
  cases h with
  | mark m h => exact .inr (.mark m h)
  | marker m h => exact .inr (.marker m h)
  | latched c u => exact .inl (((setCauses_evolves u s).trans (latch_evolves c _)).trans (ackReply_evolves _))
  | followed c u => exact .inl (((setCauses_evolves u s).trans (followLevel_evolves c _)).trans (ackReply_evolves _))
  | descriptor n d => exact .inl ((putDescriptor_evolves n d s).trans (ackReply_evolves _))
  | threshold x =>
    refine .inl (Evolves.trans ?_ (ackReply_evolves _))
    refine Evolves.trans ?_ (followLevel_evolves _ _)
    exact .of_same rfl rfl rfl rfl
  | imageData v => exact .inl (.of_image rfl rfl rfl (.lanes _ _ _ _))
  | _ => exact .inl (.of_same rfl rfl rfl rfl)

theorem Commanded.evolves {s t : State} (h : Commanded s t) : Evolves s t := by
  have acked : ∀ u, Evolves s u → Evolves s (ackReply (reroute s u)) := fun u h =>
    (h.trans (reroute_evolves s u)).trans (ackReply_evolves _)
  cases h with
  | started hm => exact acked _ (startRun_evolves s)
  | stopArmed hm ho => exact acked _ (.of_same rfl rfl rfl rfl)
  | stopSafe hm hf hz => exact acked _ (.of_same rfl rfl rfl rfl)
  | resumedFresh hm hf => exact acked _ (.of_same rfl rfl rfl rfl)
  | resumedReissue hm hf => exact (beginReissue_evolves s).trans (answer_evolves _ _ _)
  | enteredSafe hm => exact (enterSafe_evolves s).trans (ackReply_evolves _)
  | frozen n hi he hp hd => exact acked _ (freezeWindow_evolves n s)
  | thawed n hi he hp hd => exact acked _ (thawWindow_evolves n s)
  | _ => exact .of_same rfl rfl rfl rfl

/-- What a request taken does: it evolves under its table, puts a mark or marker into effect, or is a RESET. -/
theorem Requested.evolves {s t : State} (h : Requested s t) : Evolves s t ∨ Remapped s t ∨ Blank t := by
  cases h with
  | answered a d => exact .inl (answer_evolves a d s)
  | busy => exact .inl (.of_same rfl rfl rfl rfl)
  | reset straps => exact .inr (.inr ⟨rfl, rfl⟩)
  | read it d =>
    refine .inl (Evolves.trans ?_ (answer_evolves _ _ _))
    cases it <;> exact .of_same rfl rfl rfl rfl
  | written t h => exact h.evolves.imp_right .inl
  | commanded t hn h => exact .inl h.evolves

theorem poweredOn_blank (pins : PowerPins) (s : State) : Blank (effect (.powerOn pins) s) := by
  constructor
  · change (if s.lines.resetHeld then _ else latchPowerOn _ : State).win = _
    split <;> rfl
  · change (if s.lines.resetHeld then _ else latchPowerOn _ : State).image = _
    split <;> rfl

theorem resetNegated_evolves (straps : BitVec 3) (sel : Bool) (s : State) :
    Evolves s (effect (.resetInputNegated straps sel) s) := by
  change Evolves s (if s.lines.resetHeld then latchPowerOn _ else s)
  split
  · exact .of_same rfl rfl rfl rfl
  · exact .refl s

/-- What an event does: it evolves under its table, installs or drops a window, or is a reset. -/
theorem Happened.evolves {s t : State} (h : Happened s t) : Evolves s t ∨ Blank t ∨
    (∃ n, commitCheck s n = .ok ∧ t = complete .ok (installWindow n s)) ∨ ∃ n, t = complete .ok (dropDefined n s) := by
  cases h with
  | poweredOn pins => exact .inr (.inl (poweredOn_blank pins s))
  | resetAsserted => exact .inr (.inl ⟨rfl, rfl⟩)
  | resetBroadcast straps hr => exact .inr (.inl ⟨rfl, rfl⟩)
  | installed n hc hk => exact .inr (.inr (.inl ⟨n, hk, rfl⟩))
  | dropped n hc => exact .inr (.inr (.inr ⟨n, rfl⟩))
  | resetNegated straps sel => exact .inl (resetNegated_evolves straps sel s)
  | fltIn l hr h =>
    refine .inl (Evolves.trans ?_ (followLevel_evolves _ _))
    exact .of_same rfl rfl rfl rfl
  | taken a g hc hr => exact .inl ((route_evolves g _ s).trans (followLevel_evolves _ _))
  | granted l hr =>
    refine .inl (Evolves.trans ?_ (grantPort_evolves _))
    exact .of_same rfl rfl rfl rfl
  | ended l ok d hr =>
    refine .inl (Evolves.trans ?_ (accessEnded_evolves ok d _))
    exact .of_same rfl rfl rfl rfl
  | timedOut hr => exact .inl (accessEnded_evolves false 0 s)
  | poolStall o n hc ht => exact .inl ((stageWrite_evolves false n o s).trans (followLevel_evolves _ _))
  | retired hd => exact .inl (retireWhole_evolves s)
  | markReleased o hm => exact .inl (releaseMark_evolves o s)
  | endingRouted o hc hw => exact .inl (route_evolves false o s)
  | reissueEnded hr hf =>
    have h : Evolves s (enterArmed (s.setReissue { s.reissue with resuming := false, position := none })) := .of_same rfl rfl rfl rfl
    exact .inl ((h.trans (complete_evolves _ _)).trans (reroute_evolves s _))
  | reloaded n r hc => exact .inl ((putDescriptor_evolves n _ s).trans (complete_evolves r _))
  | watchdog hr hw =>
    exact .inl ((setTiming_evolves _ s).trans (latch_evolves .wdog _))
  | freezeExpired b hr => exact .inl (freezeExpiry_evolves b s)
  | latched c hr => exact .inl (latch_evolves c s)
  | linkClosed hr =>
    refine .inl ((latch_evolves .link s).trans ?_)
    exact .of_same rfl rfl rfl rfl
  | errored r hr =>
    refine .inl (Evolves.trans ?_ (latch_evolves .link _))
    exact .of_same rfl rfl rfl rfl
  | safeBroadcast hr hm =>
    refine .inl (Evolves.trans ?_ (enterSafe_evolves _))
    exact .of_same rfl rfl rfl rfl
  | _ => exact .inl (.of_same rfl rfl rfl rfl)

/-! ## The canonical form -/

theorem installWindow_image_wf (n : WinIdx) {s : State} (h : s.image.wf) : (installWindow n s).image.wf :=
  Store.wf_clearMarks h _

theorem dropDefined_image_wf (n : WinIdx) {s : State} (h : s.image.wf) : (dropDefined n s).image.wf := by
  unfold dropDefined
  dsimp only
  split
  · exact Store.wf_clearMarks h _
  · exact h

theorem Blank.wf {t : State} (h : Blank t) : t.image.wf := h.image ▸ Store.wf_reset

theorem Remapped.image_eq {s t : State} (h : Remapped s t) : t.image = s.image ∧ t.win = s.win := by
  cases h <;> exact ⟨rfl, rfl⟩

/-- Settles O11: each change of the store that an event makes keeps the canonical form. -/
theorem imageFormKept : Obligations.ImageFormKept := by
  intro s t hs h
  refine step_keeps_of_cases (P := fun s => s.image.wf) (fun s l h => h) (fun s t hs _ h => ?request) (fun s t hs h => ?event) hs h
  case request =>
    rcases h.evolves with h | h | h
    · exact h.image.wf hs
    · rw [h.image_eq.1]; exact hs
    · exact h.wf
  case event =>
    rcases h.evolves with h | h | ⟨n, -, rfl⟩ | ⟨n, rfl⟩
    · exact h.image.wf hs
    · exact h.wf
    · simpa using installWindow_image_wf n hs
    · simpa using dropDefined_image_wf n hs

/-! ## The window table -/

/-- Two ranges have no word in common, whichever is named first. -/
theorem sharesWord_comm (a b : Nat × Nat) : sharesWord a b = sharesWord b a := by
  unfold sharesWord
  rw [Bool.and_comm]

/-- The checks of COMMIT WINDOW that concern one window and the mark addresses (Table 1-2). -/
structure Fields.Stands (f : Fields) (mark marker : BusMark) : Prop where
  range : rangeOk f = true
  mark : markOk f mark marker = true
  fits : f.slices.all sliceFits = true
  own : f.hasSafe = true → sharesWord f.imageSlice f.safeSlice = false

/-- The checks of COMMIT WINDOW between two windows (Table 1-2). -/
structure Fields.Apart (f g : Fields) : Prop where
  range : sharesWord f.range g.range = false
  slices : ∀ a ∈ f.slices, ∀ b ∈ g.slices, sharesWord a b = false

theorem Fields.Apart.symm {f g : Fields} (h : f.Apart g) : g.Apart f where
  range := sharesWord_comm _ _ ▸ h.range
  slices a ha b hb := sharesWord_comm _ _ ▸ h.slices b hb a ha

/-- The four checks for a window beside a list of others. -/
theorem checks_iff (f : Fields) (l : List Fields) (mark marker : BusMark) :
    (rangeOk f = true ∧ overlapOk f l = true ∧ markOk f mark marker = true ∧ slicesOk f l = true) ↔
      f.Stands mark marker ∧ ∀ g ∈ l, f.Apart g := by
  have ho : overlapOk f l = true ↔ ∀ g ∈ l, sharesWord f.range g.range = false := by
    simp [overlapOk]
  have hs : slicesOk f l = true ↔ (f.slices.all sliceFits = true ∧ (f.hasSafe = true → sharesWord f.imageSlice f.safeSlice = false)) ∧
      ∀ g ∈ l, ∀ a ∈ f.slices, ∀ b ∈ g.slices, sharesWord a b = false := by
    simp only [slicesOk, Bool.and_eq_true, List.all_eq_true, Bool.not_eq_true', Bool.and_eq_false_iff]
    refine and_congr_left' (and_congr_right' ?_)
    cases f.hasSafe <;> simp
  rw [ho, hs]
  constructor
  · rintro ⟨h1, h2, h3, ⟨h4, h5⟩, h6⟩
    exact ⟨⟨h1, h3, h4, h5⟩, fun g hg => ⟨h2 g hg, h6 g hg⟩⟩
  · rintro ⟨⟨h1, h3, h4, h5⟩, h⟩
    exact ⟨h1, fun g hg => (h g hg).range, h3, ⟨h4, h5⟩, fun g hg => (h g hg).slices⟩

theorem mem_otherRecords {ws : Windows} {n : WinIdx} {g : Fields} :
    g ∈ otherRecords ws n ↔ ∃ m : WinIdx, m ≠ n ∧ (ws[m]).defined = true ∧ (ws[m]).record = g := by
  simp [otherRecords, mem_allWin, and_assoc]

/-- A window with this record may stand beside the other windows of the table. -/
def StandsIn (ws : Windows) (mark marker : BusMark) (n : WinIdx) (f : Fields) : Prop :=
  f.Stands mark marker ∧ ∀ m : WinIdx, m ≠ n → (ws[m]).defined = true → f.Apart (ws[m]).record

theorem standsIn_iff (ws : Windows) (mark marker : BusMark) (n : WinIdx) (f : Fields) :
    StandsIn ws mark marker n f ↔ (rangeOk f = true ∧ overlapOk f (otherRecords ws n) = true ∧ markOk f mark marker = true ∧
      slicesOk f (otherRecords ws n) = true) := by
  rw [checks_iff]
  refine and_congr_right fun _ => ⟨fun h g hg => ?_, fun h m hm hd => h _ (mem_otherRecords.2 ⟨m, hm, hd, rfl⟩)⟩
  obtain ⟨m, hm, hd, rfl⟩ := mem_otherRecords.1 hg
  exact h m hm hd

/-- The invariant of the table in terms of pairs of windows. -/
theorem windowInv_iff (s : State) : WindowInv s ↔
    ∀ n : WinIdx, (s.win[n]).defined = true → StandsIn s.win s.mark s.marker n (s.win[n]).record :=
  forall_congr' fun n => imp_congr_right fun _ => (standsIn_iff s.win s.mark s.marker n _).symm

theorem commitCheck_ok_iff (s : State) (n : WinIdx) :
    commitCheck s n = .ok ↔ StandsIn s.win s.mark s.marker n (s.win[n]).descriptor := by
  rw [standsIn_iff]
  unfold commitCheck
  dsimp only
  (repeat' split) <;> simp_all

theorem WindowInv.evolves {s t : State} (hs : WindowInv s) (h : Evolves s t) : WindowInv t := by
  rw [windowInv_iff] at hs ⊢
  intro n hn
  obtain ⟨hsn, ha⟩ := hs n ((h.table n).2 ▸ hn)
  rw [(h.table n).1, StandsIn, h.mark, h.marker]
  refine ⟨hsn, fun m hm hd => ?_⟩
  rw [(h.table m).1]
  exact ha m hm ((h.table m).2 ▸ hd)

/-- An address in no window lies in no defined window's range. -/
theorem covers_eq_false_of_findWin {ws : Windows} {a : Addr} (h : findWin ws a = none) (n : WinIdx) : (ws[n]).covers a = false := by
  simpa using List.find?_eq_none.1 h n (mem_allWin n)

theorem WindowInv.remapped {s t : State} (hs : WindowInv s) (h : Remapped s t) : WindowInv t := by
  have out : ∀ {m : BusMark} {n : WinIdx}, findWin s.win m.addr = none → (s.win[n]).defined = true →
      (s.win[n]).record.covers m.addr = false := fun {m n} h hn => by
    have := covers_eq_false_of_findWin h n
    rwa [Window.covers, hn, Bool.true_and] at this
  cases h with
  | mark m h =>
    refine fun n hn => ?_
    obtain ⟨h1, h2, h3, h4⟩ := hs n hn
    refine ⟨h1, h2, ?_, h4⟩
    simp only [markOk, Bool.and_eq_true] at h3 ⊢
    exact ⟨by simpa using out h hn, h3.2⟩
  | marker m h =>
    refine fun n hn => ?_
    obtain ⟨h1, h2, h3, h4⟩ := hs n hn
    refine ⟨h1, h2, ?_, h4⟩
    simp only [markOk, Bool.and_eq_true] at h3 ⊢
    refine ⟨h3.1, ?_⟩
    cases he : m.enabled
    · simp [he]
    · simpa [he] using out (h he) hn

theorem Blank.undefined {t : State} (h : Blank t) (n : WinIdx) : (t.win[n]).defined = false := by
  rw [h.win, reset_win]; rfl

theorem Blank.windowInv {t : State} (h : Blank t) : WindowInv t :=
  fun n hn => absurd ((h.undefined n).symm.trans hn) Bool.false_ne_true

theorem installWindow_win (n m : WinIdx) (s : State) : (installWindow n s).win[m] =
    if m = n then { s.win[n] with record := (s.win[n]).descriptor, defined := true, freeze := .opened } else s.win[m] :=
  putWindow_win n m _ s

theorem dropDefined_win (n m : WinIdx) (s : State) : (dropDefined n s).win[m] =
    if m = n ∧ (s.win[n]).defined = true then { s.win[n] with defined := false, freeze := .opened } else s.win[m] := by
  unfold dropDefined
  dsimp only
  by_cases hd : (s.win[n]).defined = true
  · rw [if_pos hd]
    simp only [hd, and_true]
    exact putWindow_win n m _ s
  · rw [if_neg hd, if_neg fun h => hd h.2]

theorem WindowInv.installed {s : State} (hs : WindowInv s) {n : WinIdx} (hk : commitCheck s n = .ok) :
    WindowInv (complete .ok (installWindow n s)) := by
  rw [windowInv_iff] at hs ⊢
  obtain ⟨hf, hfa⟩ := (commitCheck_ok_iff s n).1 hk
  intro m hm
  simp only [complete_frame, installWindow_frame] at hm ⊢
  rw [installWindow_win] at hm ⊢
  by_cases hmn : m = n
  · subst hmn
    rw [if_pos rfl]
    refine ⟨hf, fun k hk hd => ?_⟩
    rw [installWindow_win, if_neg hk] at hd ⊢
    exact hfa k hk hd
  · rw [if_neg hmn] at hm ⊢
    refine ⟨(hs m hm).1, fun k hk hd => ?_⟩
    rw [installWindow_win] at hd ⊢
    by_cases hkn : k = n
    · rw [if_pos hkn]
      exact (hfa m hmn hm).symm
    · rw [if_neg hkn] at hd ⊢
      exact (hs m hm).2 k hk hd

theorem WindowInv.dropped {s : State} (hs : WindowInv s) (n : WinIdx) : WindowInv (complete .ok (dropDefined n s)) := by
  rw [windowInv_iff] at hs ⊢
  have still : ∀ m : WinIdx, ((dropDefined n s).win[m]).defined = true →
      (s.win[m]).defined = true ∧ ((dropDefined n s).win[m]).record = (s.win[m]).record := by
    intro m hm
    rw [dropDefined_win] at hm ⊢
    split at hm
    · exact absurd hm Bool.false_ne_true
    · rename_i h
      rw [if_neg h]
      exact ⟨hm, rfl⟩
  intro m hm
  simp only [complete_frame, dropDefined_frame] at hm ⊢
  obtain ⟨hd, hr⟩ := still m hm
  rw [hr]
  refine ⟨(hs m hd).1, fun k hk hkd => ?_⟩
  obtain ⟨hkd', hkr⟩ := still k hkd
  rw [hkr]
  exact (hs m hd).2 k hk hkd'

/-- Settles O12: the table and the mark addresses change at a COMMIT, a DROP and the writes of the marks alone, each behind the checks
that keep the windows apart. -/
theorem windowsKept : Obligations.WindowsKept := by
  intro s t hs h
  refine step_keeps_of_cases (P := WindowInv) (fun s l h => h) (fun s t hs _ h => ?request) (fun s t hs h => ?event) hs h
  case request =>
    rcases h.evolves with h | h | h
    · exact hs.evolves h
    · exact hs.remapped h
    · exact h.windowInv
  case event =>
    rcases h.evolves with h | h | ⟨n, hk, rfl⟩ | ⟨n, rfl⟩
    · exact hs.evolves h
    · exact h.windowInv
    · exact hs.installed hk
    · exact hs.dropped n

/-! ## The marks -/

/-- The marks of a store, under a window table (R58, 4.2). -/
structure MarksOk (ws : Windows) (st : Store) : Prop where
  outside : ∀ w, inSomeImage ws w = false → st.marksAt w = Marks.clear
  owed : ∀ w, (st.marksAt w).owed &&& ~~~(st.marksAt w).valid = 0
  input : ∀ w, ∀ n : WinIdx, (ws[n]).defined = true → (ws[n]).record.inImage w = true → (ws[n]).record.kind = .input →
    (st.marksAt w).valid = 0 ∧ (st.marksAt w).owed = 0
  output : ∀ w, ∀ n : WinIdx, (ws[n]).defined = true → (ws[n]).record.inImage w = true → (ws[n]).record.kind = .output →
    (st.marksAt w).held = false ∧ (st.marksAt w).fresh = false

theorem marksInv_iff (s : State) : MarksInv s ↔ MarksOk s.win s.image := by
  constructor
  · intro h
    refine ⟨fun w => (h w).1, fun w => (h w).2.1, fun w n hd hi hk => ?_, fun w n hd hi hk => ?_⟩
    · have := (h w).2.2 n hd hi
      rw [hk] at this
      exact this
    · have := (h w).2.2 n hd hi
      rw [hk] at this
      exact this
  · intro h w
    refine ⟨h.outside w, h.owed w, fun n hd hi => ?_⟩
    cases hk : (s.win[n]).record.kind
    · exact h.input w n hd hi hk
    · exact h.output w n hd hi hk

/-- No store word lies in the image slices of two windows (Table 1-2). -/
def ImagesApart (ws : Windows) : Prop := ∀ n m : WinIdx, ∀ w, (ws[n]).defined = true → (ws[m]).defined = true →
  (ws[n]).record.inImage w = true → (ws[m]).record.inImage w = true → n = m

theorem Fields.inImage_iff (f : Fields) (w : Nat) :
    f.inImage w = true ↔ f.imageBase.toNat ≤ w ∧ w < f.imageBase.toNat + f.length.toNat := by
  simp [Fields.inImage]

theorem sharesWord_eq_false_iff (a b : Nat × Nat) : sharesWord a b = false ↔ b.1 + b.2 ≤ a.1 ∨ a.1 + a.2 ≤ b.1 := by
  simp only [sharesWord, Bool.and_eq_false_iff, decide_eq_false_iff_not, Nat.not_lt]

theorem Fields.Apart.not_inImage {f g : Fields} (h : f.Apart g) {w : Nat} (hf : f.inImage w = true) : g.inImage w = false := by
  have hs : sharesWord f.imageSlice g.imageSlice = false :=
    h.slices _ (by unfold Fields.slices; split <;> simp) _ (by unfold Fields.slices; split <;> simp)
  rw [Fields.inImage_iff] at hf
  rw [← Bool.not_eq_true, Fields.inImage_iff]
  rintro ⟨hlo, hhi⟩
  rcases (sharesWord_eq_false_iff _ _).1 hs with h | h
  · exact absurd (Nat.lt_of_le_of_lt hf.1 hhi) (Nat.not_lt.2 h)
  · exact absurd (Nat.lt_of_le_of_lt hlo hf.2) (Nat.not_lt.2 h)

theorem WindowInv.imagesApart {s : State} (h : WindowInv s) : ImagesApart s.win := by
  intro n m w hn hm hi hj
  by_contra hne
  have := (((windowInv_iff s).1 h n hn).2 m (Ne.symm hne) hm).not_inImage hi
  exact Bool.false_ne_true (this.symm.trans hj)

theorem inSomeImage_iff (ws : Windows) (w : Nat) :
    inSomeImage ws w = true ↔ ∃ n : WinIdx, (ws[n]).defined = true ∧ (ws[n]).record.inImage w = true := by
  simp [inSomeImage, mem_allWin]

/-- The word an access finds in a window's slice lies in the slice of a defined window of that kind (R58). -/
theorem imageWord_inImage {ws : Windows} {k : Kind} {n : WinIdx} {a : Addr} {w : Nat} (h : imageWord ws k n a = some w) :
    (ws[n]).defined = true ∧ (ws[n]).record.inImage w = true ∧ (ws[n]).record.kind = k := by
  unfold imageWord at h
  split at h
  · rename_i hc
    obtain ⟨hc, hk⟩ := hc
    obtain ⟨hd, hr⟩ := Bool.and_eq_true_iff.1 hc
    obtain ⟨hlo, hhi⟩ := Bool.and_eq_true_iff.1 hr
    have hlo := of_decide_eq_true hlo
    have hhi : a.toNat < (ws[n]).record.base.toNat + (ws[n]).record.length.toNat := of_decide_eq_true hhi
    refine ⟨hd, (Fields.inImage_iff _ _).2 ?_, hk⟩
    cases h
    unfold Window.imageAt Window.placeOf
    omega
  · simp at h

/-- A change of the marks of one word of a window's slice. -/
theorem MarksOk.mark {ws : Windows} {st : Store} (h : MarksOk ws st) (hw : st.wf) (ha : ImagesApart ws) {n : WinIdx} {w : Nat}
    {f : Marks → Marks} (hd : (ws[n]).defined = true) (hi : (ws[n]).record.inImage w = true)
    (howed : (f (st.marksAt w)).owed &&& ~~~(f (st.marksAt w)).valid = 0)
    (hin : (ws[n]).record.kind = .input → (f (st.marksAt w)).valid = 0 ∧ (f (st.marksAt w)).owed = 0)
    (hout : (ws[n]).record.kind = .output → (f (st.marksAt w)).held = false ∧ (f (st.marksAt w)).fresh = false) :
    MarksOk ws (st.mark w f) := by
  have here : ∀ m : WinIdx, (ws[m]).defined = true → (ws[m]).record.inImage w = true → m = n :=
    fun m hm hmi => ha m n w hm hd hmi hi
  refine ⟨fun v hv => ?_, fun v => ?_, fun v m hm hmi hk => ?_, fun v m hm hmi hk => ?_⟩
  all_goals rw [Store.marksAt_mark hw]
  · have : w ≠ v := fun e => by
      have := (inSomeImage_iff ws v).2 ⟨n, hd, e ▸ hi⟩
      exact Bool.false_ne_true (hv.symm.trans this)
    rw [if_neg this]
    exact h.outside v hv
  · split
    · exact howed
    · exact h.owed v
  · split
    · rename_i e
      subst e
      exact hin (here m hm hmi ▸ hk)
    · exact h.input v m hm hmi hk
  · split
    · rename_i e
      subst e
      exact hout (here m hm hmi ▸ hk)
    · exact h.output v m hm hmi hk

/-- A change of the marks of every word that keeps a clear word clear, owed within valid, and no mark of the other kind. -/
theorem MarksOk.of_all {ws vs : Windows} {st su : Store} (h : MarksOk ws st)
    (hclear : ∀ w, inSomeImage vs w = false → st.marksAt w = Marks.clear → su.marksAt w = Marks.clear)
    (hsub : ∀ w, inSomeImage vs w = false → inSomeImage ws w = true → su.marksAt w = Marks.clear)
    (howed : ∀ w, (su.marksAt w).owed &&& ~~~(su.marksAt w).valid = 0)
    (hkeep : ∀ w, ∀ n : WinIdx, (vs[n]).defined = true → (vs[n]).record.inImage w = true → su.marksAt w = Marks.clear ∨
      ((ws[n]).defined = true ∧ (ws[n]).record = (vs[n]).record ∧
        ((st.marksAt w).valid = 0 ∧ (st.marksAt w).owed = 0 → (su.marksAt w).valid = 0 ∧ (su.marksAt w).owed = 0) ∧
        ((st.marksAt w).held = false ∧ (st.marksAt w).fresh = false →
          (su.marksAt w).held = false ∧ (su.marksAt w).fresh = false))) : MarksOk vs su := by
  refine ⟨fun w hw => ?_, howed, fun w n hn hi hk => ?_, fun w n hn hi hk => ?_⟩
  · cases hs : inSomeImage ws w
    · exact hclear w hw (h.outside w hs)
    · exact hsub w hw hs
  · rcases hkeep w n hn hi with e | ⟨hd, hr, hin, -⟩
    · rw [e]; exact ⟨rfl, rfl⟩
    · exact hin (h.input w n hd (hr ▸ hi) (hr ▸ hk))
  · rcases hkeep w n hn hi with e | ⟨hd, hr, -, hout⟩
    · rw [e]; exact ⟨rfl, rfl⟩
    · exact hout (h.output w n hd (hr ▸ hi) (hr ▸ hk))

/-- Under one table, a change of every word. -/
theorem MarksOk.of_words {ws : Windows} {st su : Store} (h : MarksOk ws st) {f : Nat → Marks → Marks}
    (hf : ∀ w, su.marksAt w = f w (st.marksAt w)) (hclear : ∀ w, f w Marks.clear = Marks.clear)
    (howed : ∀ w m, m.owed &&& ~~~m.valid = 0 → (f w m).owed &&& ~~~(f w m).valid = 0)
    (hin : ∀ w m, m.valid = 0 ∧ m.owed = 0 → (f w m).valid = 0 ∧ (f w m).owed = 0)
    (hout : ∀ w m, m.held = false ∧ m.fresh = false → (f w m).held = false ∧ (f w m).fresh = false) : MarksOk ws su := by
  refine .of_all h (fun w _ hc => by rw [hf, hc, hclear]) (fun w hn hs => absurd (hn.symm.trans hs) Bool.false_ne_true)
    (fun w => by rw [hf]; exact howed w _ (h.owed w)) fun w n hn _ => .inr ⟨hn, rfl, ?_, ?_⟩
  · rw [hf]; exact hin w _
  · rw [hf]; exact hout w _

/-- Every change that an event makes to the store keeps each mark in its slice. -/
theorem Remarked.marksOk {ws : Windows} (ha : ImagesApart ws) {st su : Store} (h : Remarked ws st su) (hw : st.wf)
    (hm : MarksOk ws st) : MarksOk ws su := by
  induction h with
  | refl st => exact hm
  | trans h h' ih ih' => exact ih' (h.wf hw) (ih hw hm)
  | lanes st w l v => exact ⟨hm.outside, hm.owed, hm.input, hm.output⟩
  | sampled st f hi =>
    obtain ⟨hd, hi, hk⟩ := imageWord_inImage hi
    refine hm.mark hw ha hd hi (hm.owed _) (fun _ => hm.input _ _ hd hi hk) fun ho => ?_
    rw [hk] at ho
    exact absurd ho (by decide)
  | output st hi hf =>
    obtain ⟨hd, hi, hk⟩ := imageWord_inImage hi
    refine hm.mark hw ha hd hi (hf.owed _ (hm.owed _)) (fun ho => ?_) fun _ => ?_
    · rw [hk] at ho
      exact absurd ho (by decide)
    · rw [hf.held, hf.fresh]
      exact hm.output _ _ hd hi hk
  | clearFresh st p =>
    refine hm.of_words (f := fun w m => if p w = true then { m with fresh := false } else m) (Store.marksAt_clearFresh hw p) (fun w => ?_) (fun w m h => ?_) (fun w m h => ?_) fun w m h => ?_
    all_goals cases p w
    all_goals first | rfl | exact h | exact ⟨h.1, rfl⟩
  | clearMarks st p =>
    refine hm.of_words (f := fun w m => if p w = true then Marks.clear else m) (Store.marksAt_clearMarks hw p) (fun w => ?_) (fun w m h => ?_) (fun w m h => ?_) fun w m h => ?_
    all_goals cases p w
    all_goals first | rfl | exact h | exact ⟨rfl, rfl⟩ | exact (by decide : (0 : Lanes) &&& ~~~0 = 0)
  | oweValid st p =>
    refine hm.of_words (f := fun w m => if p w = true then { m with owed := m.valid } else m) (Store.marksAt_oweValid hw p) (fun w => ?_) (fun w m h => ?_) (fun w m h => ?_) fun w m h => ?_
    all_goals cases p w
    all_goals first | rfl | exact h | exact ⟨h.1, h.1⟩ | exact BitVec.and_not_self _

theorem SameTable.marksOk {ws vs : Windows} (h : SameTable ws vs) {st : Store} (hm : MarksOk ws st) : MarksOk vs st := by
  have hs : ∀ w, inSomeImage vs w = inSomeImage ws w := fun w => by
    unfold inSomeImage
    congr 1
    funext n
    rw [(h n).1, (h n).2]
  refine .of_all hm (fun w _ hc => hc) (fun w hn hi => absurd (hn.symm.trans ((hs w).trans hi)) Bool.false_ne_true) hm.owed
    fun w n hn _ => .inr ⟨(h n).2 ▸ hn, (h n).1.symm, id, id⟩

theorem MarksOk.evolves {s t : State} (hw : s.image.wf) (hi : WindowInv s) (hm : MarksOk s.win s.image) (h : Evolves s t) :
    MarksOk t.win t.image :=
  h.table.marksOk (h.image.marksOk hi.imagesApart hw hm)

theorem Blank.marksInv {t : State} (h : Blank t) : MarksInv t := by
  rw [marksInv_iff, h.win, h.image]
  exact (marksInv_iff State.reset).1 .reset

theorem installWindow_marksAt {s : State} (hw : s.image.wf) (n : WinIdx) (w : Nat) : (installWindow n s).image.marksAt w =
    if ((s.win[n]).defined && (s.win[n]).record.inImage w || (s.win[n]).descriptor.inImage w) = true then Marks.clear
    else s.image.marksAt w :=
  Store.marksAt_clearMarks hw _ w

theorem dropDefined_marksAt {s : State} (hw : s.image.wf) (n : WinIdx) (w : Nat) : (dropDefined n s).image.marksAt w =
    if ((s.win[n]).defined && (s.win[n]).record.inImage w) = true then Marks.clear else s.image.marksAt w := by
  unfold dropDefined
  dsimp only
  cases hd : (s.win[n]).defined
  · simp
  · exact Store.marksAt_clearMarks hw _ w

/-- The marks of a table in which one window is replaced, with the slices it leaves and takes wiped. -/
theorem MarksOk.replaced {s u : State} (hm : MarksOk s.win s.image) {n : WinIdx} {wiped : Nat → Bool}
    (hwin : ∀ m : WinIdx, m ≠ n → u.win[m] = s.win[m])
    (himage : ∀ w, u.image.marksAt w = if wiped w = true then Marks.clear else s.image.marksAt w)
    (hold : ∀ w, (s.win[n]).defined = true → (s.win[n]).record.inImage w = true → wiped w = true)
    (hnew : ∀ w, (u.win[n]).defined = true → (u.win[n]).record.inImage w = true → wiped w = true) : MarksOk u.win u.image := by
  refine .of_all hm (fun w _ hc => ?_) (fun w hn hs => ?_) (fun w => ?_) fun w m hd hi => ?_
  · rw [himage, hc]
    split <;> rfl
  · rw [himage, if_pos]
    obtain ⟨m, hd, hi⟩ := (inSomeImage_iff s.win w).1 hs
    by_cases hmn : m = n
    · exact hold w (hmn ▸ hd) (hmn ▸ hi)
    · have := (inSomeImage_iff u.win w).2 ⟨m, by rw [hwin m hmn]; exact ⟨hd, hi⟩⟩
      exact absurd (hn.symm.trans this) Bool.false_ne_true
  · rw [himage]
    split
    · decide
    · exact hm.owed w
  · by_cases hwd : wiped w = true
    · exact .inl (by rw [himage, if_pos hwd])
    · have hmn : m ≠ n := fun e => hwd (hnew w (e ▸ hd) (e ▸ hi))
      rw [himage, if_neg hwd]
      rw [hwin m hmn] at hd ⊢
      exact .inr ⟨hd, rfl, id, id⟩

theorem MarksOk.installed {s : State} (hw : s.image.wf) (hm : MarksOk s.win s.image) (n : WinIdx) :
    MarksOk (installWindow n s).win (installWindow n s).image := by
  refine hm.replaced (n := n) (fun m h => ?_) (installWindow_marksAt hw n) (fun w hd hi => ?_) fun w _ hi => ?_
  · rw [installWindow_win, if_neg h]
  · rw [hd, hi]; rfl
  · rw [installWindow_win, if_pos rfl] at hi
    rw [show (s.win[n]).descriptor.inImage w = true from hi, Bool.or_true]

theorem MarksOk.dropped {s : State} (hw : s.image.wf) (hm : MarksOk s.win s.image) (n : WinIdx) :
    MarksOk (dropDefined n s).win (dropDefined n s).image := by
  refine hm.replaced (n := n) (fun m h => ?_) (dropDefined_marksAt hw n) (fun w hd hi => ?_) fun w hd _ => ?_
  · rw [dropDefined_win, if_neg fun h' => h h'.1]
  · rw [hd, hi]; rfl
  · rw [dropDefined_win] at hd
    split at hd
    · exact absurd hd Bool.false_ne_true
    · next h => exact absurd ⟨rfl, hd⟩ h

/-- Settles O13: under a table whose slices are apart every change of the store keeps the marks in their slices, and a window that comes
or goes has its slices wiped. -/
theorem marksKept : Obligations.MarksKept := by
  intro s t hw hi hm h
  refine (step_keeps_of_cases (P := fun s => s.image.wf ∧ WindowInv s ∧ MarksInv s) (fun s l h => h)
    (fun s t hs _ h => ?request) (fun s t hs h => ?event) ⟨hw, hi, hm⟩ h).2.2
  case request =>
    obtain ⟨hw, hi, hm⟩ := hs
    rcases h.evolves with h | h | h
    · exact ⟨h.image.wf hw, hi.evolves h, (marksInv_iff t).2 (.evolves hw hi ((marksInv_iff s).1 hm) h)⟩
    · rw [marksInv_iff, h.image_eq.1, h.image_eq.2, ← marksInv_iff]
      exact ⟨hw, hi.remapped h, hm⟩
    · exact ⟨h.wf, h.windowInv, h.marksInv⟩
  case event =>
    obtain ⟨hw, hi, hm⟩ := hs
    rcases h.evolves with h | h | ⟨n, hk, rfl⟩ | ⟨n, rfl⟩
    · exact ⟨h.image.wf hw, hi.evolves h, (marksInv_iff t).2 (.evolves hw hi ((marksInv_iff s).1 hm) h)⟩
    · exact ⟨h.wf, h.windowInv, h.marksInv⟩
    · refine ⟨by simpa using installWindow_image_wf n hw, hi.installed hk, (marksInv_iff _).2 ?_⟩
      simpa using MarksOk.installed hw ((marksInv_iff s).1 hm) n
    · refine ⟨by simpa using dropDefined_image_wf n hw, hi.dropped n, (marksInv_iff _).2 ?_⟩
      simpa using MarksOk.dropped hw ((marksInv_iff s).1 hm) n

end Sys2Proof.Machine
end

section
/-! PROOF. What each mode allows the blocks to hold, and the order of the sets that are gone through: every operation keeps both, and so
does every step (Table 2-1, Table 5-1, R76, R92). -/

namespace Sys2Proof.Machine

/-! ## What the invariants read -/

/-- What the invariants of the modes and of the order read of a state. -/
structure ModeView where
  win : Windows
  mode : Mode
  stopPending : Bool
  staged : List Entry
  sampler : Sampler
  running : Bool
  watchdog : WdState
  queue : List BatchRecord
  firstFlush : List WinIdx
  filling : Bool
  resuming : Bool
  command : Option InFlight

def State.modeView (s : State) : ModeView :=
  { win := s.win, mode := s.ctl.mode, stopPending := s.ctl.stopPending, staged := s.pool.openStage, sampler := s.sampler,
    running := s.timing.running, watchdog := s.timing.wdState, queue := s.release.queue, firstFlush := s.freeze.firstFlush,
    filling := s.fill.active, resuming := s.reissue.resuming, command := s.mg.command }

/-- `ModeInv`, on what it reads. -/
structure ModeView.Allowed (v : ModeView) : Prop where
  opened : ∀ n : WinIdx, ((v.win[n]).defined = false ∨ v.mode = .idle ∨ v.mode = .ending ∨ v.stopPending = true) →
    (v.win[n]).freeze = .opened
  freezing : ∀ n : WinIdx, (v.win[n]).freeze = .freezePending ∨ (v.win[n]).freeze = .thawPending → v.mode = .run
  stop : v.stopPending = true → v.mode = .run
  staged : v.staged ≠ [] → v.mode = .run
  sampling : v.sampler.state ≠ .stopped → v.mode = .run
  running : v.running = true ↔ v.mode.timed
  watchdog : v.watchdog ≠ .stopped ↔ v.mode.timed
  queue : v.queue ≠ [] → v.mode = .run ∨ v.mode = .ending
  ending : v.mode = .ending → v.queue ≠ []
  limit : v.queue.length ≤ Config.queueLimit
  firstFlush : v.firstFlush ≠ [] → v.mode.timed
  filling : v.filling = true → v.mode = .safe
  resuming : v.resuming = true ↔ v.command = some .reissue
  resumingSafe : v.resuming = true → v.mode = .safe
  command : v.command ≠ none → v.resuming = true ∨ v.mode = .idle

/-- The flush set of every record is in ascending index (R92). -/
def FlushSorted (q : List BatchRecord) : Prop := ∀ r ∈ q, r.flushSet.Pairwise (· < ·)

/-- The sampler's part of `OrderInv` (Table 5-1, R75, R76, R78). -/
structure Sampler.Ordered (w : Sampler) : Prop where
  sorted : w.walkSet.Pairwise (· < ·)
  position : ∀ p, w.position = some p → w.state = .walking ∧ p.1 ∈ w.walkSet
  walking : w.state = .walking → w.position ≠ none
  done : w.done = true ↔ w.state = .finished

theorem modeInv_iff (s : State) : ModeInv s ↔ s.modeView.Allowed := by
  constructor
  · rintro ⟨hf, h1, h2, h3, h4, h5, h6, h7, h8, h9, h10, h11, h12, h13⟩
    exact ⟨fun n => (hf n).1, fun n => (hf n).2, h1, h2, h3, h4, h5, h6, h7, h8, h9, h10, h11, h12, h13⟩
  · rintro ⟨hf, hp, h1, h2, h3, h4, h5, h6, h7, h8, h9, h10, h11, h12, h13⟩
    exact ⟨fun n => ⟨hf n, hp n⟩, h1, h2, h3, h4, h5, h6, h7, h8, h9, h10, h11, h12, h13⟩

theorem orderInv_iff (s : State) : OrderInv s ↔ s.modeView.sampler.Ordered ∧ FlushSorted s.modeView.queue := by
  constructor
  · rintro ⟨h1, h2, h3, h4, h5⟩
    exact ⟨⟨h1, h2, h3, h4⟩, h5⟩
  · rintro ⟨⟨h1, h2, h3, h4⟩, h5⟩
    exact ⟨h1, h2, h3, h4, h5⟩

/-- `t` keeps both invariants of `s`. -/
structure Keeps (s t : State) : Prop where
  allowed : s.modeView.Allowed → t.modeView.Allowed
  sampler : s.sampler.Ordered → t.sampler.Ordered
  queue : FlushSorted s.release.queue → FlushSorted t.release.queue

theorem Keeps.refl (s : State) : Keeps s s := ⟨id, id, id⟩

theorem Keeps.trans {s t u : State} (h : Keeps s t) (h' : Keeps t u) : Keeps s u :=
  ⟨h'.allowed ∘ h.allowed, h'.sampler ∘ h.sampler, h'.queue ∘ h.queue⟩

theorem Keeps.of_view {s t : State} (h : t.modeView = s.modeView) : Keeps s t := by
  have hs : t.sampler = s.sampler := congrArg ModeView.sampler h
  have hq : t.release.queue = s.release.queue := congrArg ModeView.queue h
  exact ⟨fun hv => h ▸ hv, fun ho => hs ▸ ho, fun ho => hq ▸ ho⟩

/-- Nothing but the records of the queue has changed, as many as there were. -/
theorem Keeps.of_queue {s t : State} {q : List BatchRecord} (hv : t.modeView = { s.modeView with queue := q })
    (hl : q.length = s.release.queue.length) (hs : FlushSorted s.release.queue → FlushSorted q) : Keeps s t := by
  have ht : t.sampler = s.sampler := congrArg ModeView.sampler hv
  have hq : t.release.queue = q := congrArg ModeView.queue hv
  have he : q ≠ [] ↔ s.release.queue ≠ [] := by
    rw [← List.length_pos_iff, ← List.length_pos_iff, hl]
  refine ⟨fun h => ?_, fun ho => ht ▸ ho, fun ho => hq ▸ hs ho⟩
  rw [hv]
  exact { h with queue := fun hn => h.queue (he.1 hn), ending := fun hm => he.2 (h.ending hm), limit := hl ▸ h.limit }

/-- Nothing but the walk has changed, of a sampler that is not stopped. -/
theorem Keeps.of_walk {s t : State} {w : Sampler} (hv : t.modeView = { s.modeView with sampler := w })
    (hm : s.sampler.state = .stopped → w.state = .stopped) (ho : s.sampler.Ordered → w.Ordered) : Keeps s t := by
  have ht : t.sampler = w := congrArg ModeView.sampler hv
  have hq : t.release.queue = s.release.queue := congrArg ModeView.queue hv
  refine ⟨fun h => ?_, fun h => ht ▸ ho h, fun h => hq ▸ h⟩
  rw [hv]
  exact { h with sampling := fun hn => h.sampling fun hs => hn (hm hs) }

/-- Nothing but the safe fill's being active has changed, if anything. -/
theorem Keeps.of_fill {s t : State} {b : Bool} (hv : t.modeView = { s.modeView with filling := b })
    (hb : b = true → s.fill.active = true ∨ s.ctl.mode = .safe) : Keeps s t := by
  have ht : t.sampler = s.sampler := congrArg ModeView.sampler hv
  have hq : t.release.queue = s.release.queue := congrArg ModeView.queue hv
  refine ⟨fun h => ?_, fun ho => ht ▸ ho, fun ho => hq ▸ ho⟩
  rw [hv]
  exact { h with filling := fun hn => (hb hn).elim h.filling id }

/-! ## The walk -/

theorem Sampler.Ordered.stopped : Sampler.Ordered { state := .stopped, position := none, walkSet := [], done := false } where
  sorted := .nil
  position p h := by simp at h
  walking h := by simp at h
  done := by simp

/-- A walk over a set in ascending index goes to a word of the set. -/
theorem Sampler.goTo_ordered {w : Sampler} (hs : w.walkSet.Pairwise (· < ·)) (hw : w.state = .walking) (hd : w.done = false) {ws : Windows}
    {st : Store} {l : List (WinIdx × Nat)} (hl : ∀ p ∈ l, p.1 ∈ w.walkSet) : (w.goTo ws st l).Ordered := by
  unfold Sampler.goTo
  split
  · rename_i p hp
    refine ⟨hs, fun q hq => ?_, fun _ => by simp, by simp [hw, hd]⟩
    cases hq
    exact ⟨hw, hl p (List.mem_of_find?_eq_some hp)⟩
  · exact ⟨hs, fun q hq => by simp [Sampler.finish] at hq, fun h => by simp [Sampler.finish] at h, by simp [Sampler.finish]⟩

theorem walkOn_keeps (s : State) : Keeps s (walkOn s) := by
  unfold walkOn
  split
  · rename_i p hw hp
    refine .of_walk (w := s.sampler.goTo s.win s.image (wordsAfter s.win s.sampler.walkSet p)) rfl
      (fun h => by simp [hw] at h) fun ho => ?_
    have hn : s.sampler.done = false := by
      rw [← Bool.not_eq_true, ho.done, hw]
      simp
    refine Sampler.goTo_ordered ho.sorted hw hn fun q hq => ?_
    obtain ⟨m, k⟩ := q
    exact ((mem_wordsAfter (ho.position p hp).2).1 hq).1
  · exact .refl s

theorem walkBegin_ordered (ws : Windows) (s : State) : (walkBegin ws s).sampler.Ordered :=
  Sampler.goTo_ordered (walkSetAt_sorted ws) rfl rfl fun p hp => (mem_walkWords (k := p.2) (m := p.1)).1 hp |>.1

/-! ## The release engine -/

theorem seekFlush_suffix (ws : Windows) (st : Store) (set : List WinIdx) (off : Nat) : (seekFlush ws st set off).1 <:+ set := by
  induction set generalizing off with
  | nil => exact List.suffix_rfl
  | cons n ns ih =>
    unfold seekFlush
    split
    · exact List.suffix_rfl
    · exact (ih 0).trans (List.suffix_cons n ns)

/-- The head of the queue with another stage, with fewer entries, or with less to flush. -/
theorem FlushSorted.head {r r' : BatchRecord} {rest : List BatchRecord} (h : FlushSorted (r :: rest))
    (hs : r'.flushSet.Sublist r.flushSet) : FlushSorted (r' :: rest) := by
  intro x hx
  rcases List.mem_cons.1 hx with rfl | hx
  · exact (h r List.mem_cons_self).sublist hs
  · exact h x (List.mem_cons_of_mem r hx)

theorem settleHead_keeps (s : State) : Keeps s (settleHead s) := by
  unfold settleHead
  split
  · exact .refl s
  · rename_i r rest hq
    have head : ∀ (r' : BatchRecord) (p : Option (WinIdx × Nat)) (d : Bool), r'.flushSet.Sublist r.flushSet →
        Keeps s (s.setRelease ⟨r' :: rest, p, d⟩) := fun r' p d hs =>
      .of_queue (q := r' :: rest) rfl (by rw [hq]; rfl) fun h => (hq ▸ h : FlushSorted (r :: rest)).head hs
    have set := (seekFlush_suffix s.win s.image r.flushSet (flushStart s.release.flushPos r.flushSet)).sublist
    split
    · exact head _ _ _ (List.Sublist.refl _)
    · split
      · rename_i h
        rw [h] at set
        exact head _ _ _ set
      · split
        · exact head _ _ _ (List.nil_sublist _)
        · exact head _ _ _ (List.nil_sublist _)

theorem flushOn_keeps (s : State) : Keeps s (flushOn s) := by
  unfold flushOn
  refine Keeps.trans ?_ (settleHead_keeps _)
  exact .of_view rfl

theorem freeHeadEntry_keeps (s : State) : Keeps s (freeHeadEntry s) := by
  unfold freeHeadEntry
  split
  · rename_i r rest hq
    exact .of_queue rfl (by rw [hq]; rfl) fun h => (hq ▸ h : FlushSorted (r :: rest)).head (List.Sublist.refl _)
  · exact .refl s

theorem reissueFrom_keeps (n : WinIdx) (off : Nat) (s : State) : Keeps s (reissueFrom n off s) := by
  unfold reissueFrom
  split <;> exact .of_view rfl

theorem reissueOn_keeps (s : State) : Keeps s (reissueOn s) := by
  unfold reissueOn
  split
  · exact reissueFrom_keeps _ _ s
  · exact .refl s

theorem reissuePast_keeps (s : State) : Keeps s (reissuePast s) := by
  have past : ∀ p, Keeps s (s.setReissue { s.reissue with position := p }) := fun p => .of_view rfl
  unfold reissuePast
  dsimp only
  split
  · exact past _
  · exact (past _).trans (reissueOn_keeps _)

theorem fillOn_keeps (s : State) : Keeps s (fillOn s) := by
  have fill : ∀ f, (f.active = true → s.fill.active = true) → Keeps s (s.setFill f) := fun f h =>
    .of_fill (b := f.active) rfl fun hb => .inl (h hb)
  unfold fillOn
  (repeat' split)
  · exact .refl s
  · exact fill _ id
  · exact fill _ id
  · exact (fill _ (by simp)).trans (reissueOn_keeps _)
  · exact fill _ id

theorem goOn_keeps (o : Owner) (s : State) : Keeps s (goOn o s) := by
  unfold goOn
  (repeat' split)
  · exact settleHead_keeps s
  · exact settleHead_keeps s
  · exact flushOn_keeps s
  · exact .of_view rfl
  · exact .refl s
  · exact fillOn_keeps s
  · exact .refl s
  · exact .of_fill (b := s.fill.active) rfl .inl
  · exact .refl s
  · exact reissuePast_keeps s
  · exact .refl s
  · exact .of_view rfl
  · exact .refl s
  · exact .refl s
  · exact walkOn_keeps s
  · exact .refl s

/-! ## The Memory Port's grants -/

theorem beginRelease_keeps (a : Addr) (l : Lanes) (v : Word) (o : Owner) (s : State) : Keeps s (beginRelease a l v o s) := .of_view rfl

theorem grantDrain_keeps (s : State) : Keeps s (grantDrain s) := by
  unfold grantDrain
  dsimp only
  (repeat' split)
  all_goals first
    | exact .refl s
    | exact settleHead_keeps s
    | exact flushOn_keeps s
    | exact beginRelease_keeps _ _ _ _ s

theorem grantFill_keeps (s : State) : Keeps s (grantFill s) := by
  unfold grantFill
  dsimp only
  (repeat' split)
  · exact beginRelease_keeps _ _ _ _ s
  · exact fillOn_keeps s
  · exact beginRelease_keeps _ _ _ _ s
  · exact .refl s
  · exact .refl s

theorem grantReissue_keeps (s : State) : Keeps s (grantReissue s) := by
  unfold grantReissue
  dsimp only
  (repeat' split)
  · exact reissuePast_keeps s
  · exact beginRelease_keeps _ _ _ _ s
  · exact beginRelease_keeps _ _ _ _ s
  · exact .refl s
  · exact .refl s

theorem grantRelease_keeps (s : State) : Keeps s (grantRelease s) := by
  unfold grantRelease
  split
  · exact .refl s
  · exact grantDrain_keeps s
  · exact grantFill_keeps s
  · exact grantReissue_keeps s

theorem grantSampler_keeps (s : State) : Keeps s (grantSampler s) := by
  unfold grantSampler
  dsimp only
  (repeat' split)
  · exact .refl s
  · exact walkOn_keeps s
  · exact .of_view rfl

theorem grantController_keeps (s : State) : Keeps s (grantController s) := .of_view (by simp [State.modeView])

theorem grantPort_keeps (s : State) : Keeps s (grantPort s) := by
  unfold grantPort
  (repeat' split)
  · exact .refl s
  · exact grantController_keeps s
  · exact grantRelease_keeps s
  · exact grantSampler_keeps s
  · exact .refl s

/-! ## SAFE entry, the abandoning of a reissue, and latching -/

theorem FreezeControl.follow_firstFlush (f : FreezeControl) (before after : Windows) : (f.follow before after).firstFlush = f.firstFlush := by
  unfold FreezeControl.follow
  split <;> rfl

theorem setWindows_firstFlush (ws : Windows) (s : State) : (setWindows ws s).freeze.firstFlush = s.freeze.firstFlush :=
  s.freeze.follow_firstFlush _ _

theorem beginFill_active (s : State) : (beginFill s).fill.active = true := by
  unfold beginFill Fill.toMarker
  dsimp only
  split <;> rfl

/-- What SAFE entry leaves of what the invariants read (Table 9-1). -/
theorem enterSafe_modeView (s : State) : (enterSafe s).modeView =
    { s.modeView with
      win := settlePending s.win, mode := .safe, stopPending := false, staged := [], running := false, watchdog := .stopped,
      sampler := { state := .stopped, position := none, walkSet := [], done := false }, queue := [], firstFlush := [],
      filling := true } := by
  have hff : (enterSafe s).freeze.firstFlush = [] := by simp [enterSafe, safeFreeze, setWindows_firstFlush]
  have hfill : (enterSafe s).fill.active = true := by simp [enterSafe, beginFill_active]
  simp only [State.modeView, hff, hfill, enterSafe_win]
  simp [enterSafe, safeControl, walkAbandon, dropQueue, Timing.halt]

theorem settlePending_freeze (ws : Windows) (n : WinIdx) : ((settlePending ws)[n]).freeze = (ws[n]).freeze.settled := by
  rw [settlePending_get]
  cases (ws[n]).freeze <;> rfl

theorem settlePending_defined (ws : Windows) (n : WinIdx) : ((settlePending ws)[n]).defined = (ws[n]).defined := by
  rw [settlePending_get]

theorem enterSafe_keeps {s : State} (hm : s.ctl.mode = .armed ∨ s.ctl.mode = .run ∨ s.ctl.mode = .ending) : Keeps s (enterSafe s) := by
  have hv := enterSafe_modeView s
  have hs : (enterSafe s).sampler = _ := congrArg ModeView.sampler hv
  have hq : (enterSafe s).release.queue = _ := congrArg ModeView.queue hv
  refine ⟨fun h => ?_, fun _ => hs ▸ .stopped, fun _ => by rw [hq]; simp [FlushSorted]⟩
  have hr : s.reissue.resuming = false := by
    rw [← Bool.not_eq_true]
    intro hr
    have : s.ctl.mode = .safe := h.resumingSafe hr
    simp [this] at hm
  have hc : s.mg.command = none := by
    by_contra hc
    rcases h.command hc with h' | h'
    · exact Bool.false_ne_true (hr.symm.trans h')
    · simp [show s.ctl.mode = .idle from h'] at hm
  rw [hv]
  refine { opened := fun n hn => ?_, freezing := fun n hn => ?_, stop := by simp, staged := by simp, sampling := by simp,
           running := by simp, watchdog := by simp, queue := by simp, ending := by simp, limit := by simp, firstFlush := by simp,
           filling := by simp, resuming := h.resuming, resumingSafe := by simp, command := fun hn => absurd hc hn }
  · simp only [settlePending_defined, settlePending_freeze] at hn ⊢
    have hd : (s.win[n]).defined = false := by simpa using hn
    rw [show (s.win[n]).freeze = .opened from h.opened n (.inl hd)]
    rfl
  · simp only [settlePending_freeze] at hn
    exact absurd hn (not_or.2 (Freeze.settled_ne _))

theorem abandonReissue_keeps {s : State} (hm : s.ctl.mode = .safe) : Keeps s (abandonReissue s) := by
  have hv : (abandonReissue s).modeView = { s.modeView with filling := true, resuming := false, command := none } := by
    have hf : (abandonReissue s).fill.active = true := beginFill_active _
    simp only [State.modeView, hf]
    simp [abandonReissue, complete]
  have hs : (abandonReissue s).sampler = s.sampler := congrArg ModeView.sampler hv
  have hq : (abandonReissue s).release.queue = s.release.queue := congrArg ModeView.queue hv
  refine ⟨fun h => ?_, fun h => hs ▸ h, fun h => hq ▸ h⟩
  rw [hv]
  exact { h with filling := fun _ => hm, resuming := by simp, resumingSafe := by simp, command := by simp }

theorem latch_keeps (c : Cause) (s : State) : Keeps s (latch c s) := by
  have set : Keeps s (s.setCauses (s.causes.setFlag c)) := .of_view rfl
  rcases latch_cases c s with e | e | ⟨hm, e⟩ | ⟨hm, -, e⟩ <;> rw [e]
  · exact .refl s
  · exact set
  · exact set.trans (enterSafe_keeps hm)
  · exact set.trans (abandonReissue_keeps hm)

theorem followLevel_keeps (c : LevelCause) (s : State) : Keeps s (followLevel c s) := by
  rcases followLevel_cases c s with e | ⟨u, e⟩ <;> rw [e]
  · exact latch_keeps c.cause s
  · exact .of_view rfl

/-! ## The first mark and the boundary -/

theorem allWin_sorted : allWin.Pairwise (· < ·) := by decide

theorem firstMark_keeps {s : State} (hm : s.ctl.mode = .armed) : Keeps s (firstMark s) := by
  have hv : (firstMark s).modeView = { s.modeView with
      mode := .run, running := true, watchdog := .running, sampler := (firstMark s).sampler } := by
    simp [State.modeView, firstMark, Timing.restart]
  have hq : (firstMark s).release.queue = s.release.queue := congrArg ModeView.queue hv
  refine ⟨fun h => ?_, fun _ => walkBegin_ordered _ _, fun h => hq ▸ h⟩
  have armed : s.modeView.mode = .armed := hm
  rw [hv]
  refine { opened := fun n hn => ?_, freezing := fun _ _ => rfl, stop := fun _ => rfl, staged := fun _ => rfl, sampling := fun _ => rfl,
           running := by simp [Mode.timed], watchdog := by simp [Mode.timed], queue := fun _ => .inl rfl, ending := by simp, limit := h.limit,
           firstFlush := fun _ => .inr rfl, filling := fun hf => absurd (h.filling hf) (by simp [armed]), resuming := h.resuming,
           resumingSafe := fun hr => absurd (h.resumingSafe hr) (by simp [armed]),
           command := fun hc => (h.command hc).imp_right fun hi => absurd hi (by simp [armed]) }
  · refine h.opened n (hn.imp_right fun hn => ?_)
    rcases hn with hn | hn | hn
    · cases hn
    · cases hn
    · exact .inr (.inr hn)

/-- A boundary, before the head of the queue is looked at. -/
def boundaryWork (s : State) : State := boundaryWalk s.ctl.stopPending s.win (boundaryControl (boundaryFreeze (boundaryPool s)))

theorem boundary_eq (s : State) : boundary s =
    if s.release.queue = [] ∨ purgedInFlight (boundaryWork s).mp = true then settleHead (boundaryWork s) else boundaryWork s := rfl

/-- The queue that a boundary leaves (R51 to R53). -/
def boundaryQueue (s : State) : List BatchRecord := s.release.queue.map (BatchRecord.purge s.win) ++ [newRecord s]

theorem boundaryWork_modeView (s : State) : (boundaryWork s).modeView =
    { s.modeView with
      win := settlePending s.win, mode := if s.ctl.stopPending then .ending else .run, stopPending := false, staged := [],
      sampler := (boundaryWork s).sampler, running := !s.ctl.stopPending,
      watchdog := if s.ctl.stopPending then .stopped else .running, queue := boundaryQueue s, firstFlush := [] } := by
  have hff : (boundaryFreeze (boundaryPool s)).freeze.firstFlush = [] := by simp [boundaryFreeze, setWindows_firstFlush]
  have hw : (boundaryFreeze (boundaryPool s)).win = settlePending s.win := by simp [boundaryFreeze]
  simp only [State.modeView, boundaryWork, boundaryWalk_frame, boundaryControl_frame, hff, hw]
  cases hs : s.ctl.stopPending <;>
    simp [boundaryControl, boundaryPool, boundaryQueue, setOpenStage, hs, Timing.restart, Timing.haltAtZero]

theorem boundaryWork_stopped {s : State} (h : s.ctl.stopPending = true) : (boundaryWork s).sampler.state = .stopped := by
  simp [boundaryWork, boundaryWalk, h, walkStop]

theorem boundaryWork_ordered (s : State) : (boundaryWork s).sampler.Ordered := by
  unfold boundaryWork boundaryWalk
  split
  · exact .stopped
  · exact walkBegin_ordered _ _

theorem boundaryFlushSet_sorted (ws : Windows) (l : List WinIdx) : (boundaryFlushSet ws l).Pairwise (· < ·) := allWin_sorted.filter _

theorem boundaryQueue_sorted {s : State} (h : FlushSorted s.release.queue) : FlushSorted (boundaryQueue s) := by
  intro r hr
  rcases List.mem_append.1 hr with hr | hr
  · obtain ⟨older, ho, rfl⟩ := List.mem_map.1 hr
    exact (h older ho).filter _
  · rw [List.mem_singleton.1 hr]
    exact boundaryFlushSet_sorted _ _

theorem boundaryWork_keeps {s : State} (hm : s.ctl.mode = .run) (hq : s.release.queue.length < Config.queueLimit) :
    Keeps s (boundaryWork s) := by
  have hv := boundaryWork_modeView s
  have hqueue : (boundaryWork s).release.queue = boundaryQueue s := congrArg ModeView.queue hv
  refine ⟨fun h => ?_, fun _ => boundaryWork_ordered s, fun h => hqueue ▸ boundaryQueue_sorted h⟩
  have run : s.modeView.mode = .run := hm
  have nonempty : boundaryQueue s ≠ [] := by simp [boundaryQueue]
  rw [hv]
  refine { opened := fun n hn => ?_, freezing := fun n hn => ?_, stop := by simp, staged := by simp, sampling := fun hn => ?_,
           running := ?_, watchdog := ?_, queue := fun _ => ?_, ending := fun _ => nonempty, limit := ?_, firstFlush := by simp,
           filling := fun hf => absurd (h.filling hf) (by simp [run]), resuming := h.resuming,
           resumingSafe := fun hr => absurd (h.resumingSafe hr) (by simp [run]),
           command := fun hc => (h.command hc).imp_right fun hi => absurd hi (by simp [run]) }
  · simp only [settlePending_defined, settlePending_freeze] at hn ⊢
    have ho : (s.win[n]).freeze = .opened := h.opened n (by
      rcases hn with hn | hn | hn | hn
      · exact .inl hn
      · split at hn <;> cases hn
      · split at hn
        · exact .inr (.inr (.inr ‹_›))
        · cases hn
      · cases hn)
    rw [ho]
    rfl
  · simp only [settlePending_freeze] at hn
    exact absurd hn (not_or.2 (Freeze.settled_ne _))
  · cases hs : s.ctl.stopPending
    · rfl
    · exact absurd (boundaryWork_stopped hs) hn
  · cases s.ctl.stopPending <;> simp [Mode.timed]
  · cases s.ctl.stopPending <;> simp [Mode.timed]
  · cases s.ctl.stopPending
    · exact .inl rfl
    · exact .inr rfl
  · simp only [boundaryQueue, List.length_append, List.length_map, List.length_singleton]
    exact hq

theorem boundary_keeps {s : State} (hm : s.ctl.mode = .run) (hq : s.release.queue.length < Config.queueLimit) : Keeps s (boundary s) := by
  rw [boundary_eq]
  split
  · exact (boundaryWork_keeps hm hq).trans (settleHead_keeps _)
  · exact boundaryWork_keeps hm hq

/-! ## Routing -/

/-- The modes of the treatments that act on the cycle controller and the pool (Table 1-3). -/
def Treatment.atMode (m : Mode) : Treatment → Prop
  | .firstMark => m = .armed
  | .boundary | .staged _ => m = .run
  | _ => True

theorem treatmentOf_atMode (s : State) (c : AccessClass) (a : Access) : (treatmentOf s c a).atMode s.ctl.mode := by
  cases c
  case plain => exact trivial
  case mark => cases hm : s.ctl.mode <;> simp [treatmentOf, markTreatment, Treatment.atMode, hm]
  case input n =>
    have : ∀ m w c, (inputTreatment m n w c).atMode m := fun m w c => by
      cases m <;> cases w <;> cases c <;> simp [inputTreatment, Treatment.atMode]
    simp only [treatmentOf]
    split
    · exact trivial
    · exact this _ _ _
  case output n =>
    have : ∀ m w c, (outputTreatment m n w c).atMode m := fun m w c => by
      cases m <;> cases w <;> cases c <;> simp [outputTreatment, Treatment.atMode]
    simp only [treatmentOf]
    split
    · exact trivial
    · exact this _ _ _

theorem mode_of_firstMark {s : State} {c : AccessClass} {a : Access} (h : treatmentOf s c a = .firstMark) : s.ctl.mode = .armed := by
  have := treatmentOf_atMode s c a
  rwa [h] at this

theorem mode_of_boundary {s : State} {c : AccessClass} {a : Access} (h : treatmentOf s c a = .boundary) : s.ctl.mode = .run := by
  have := treatmentOf_atMode s c a
  rwa [h] at this

theorem mode_of_staged {s : State} {c : AccessClass} {a : Access} {n : WinIdx} (h : treatmentOf s c a = .staged n) :
    s.ctl.mode = .run := by
  have := treatmentOf_atMode s c a
  rwa [h] at this

theorem waitFor_keeps (w : Wait) (o : Outstanding) (s : State) : Keeps s (waitFor w o s) := .of_view rfl

theorem endAccess_keeps (ok : Bool) (d : Word) (s : State) : Keeps s (endAccess ok d s) := .of_view rfl

theorem writeImage_keeps (n : WinIdx) (a : Addr) (l : Lanes) (v : Word) (f : Marks → Marks) (s : State) :
    Keeps s (writeImage n a l v f s) := .of_view (by simp [State.modeView])

/-- The open stage may hold entries in RUN (R37). -/
theorem setOpenStage_keeps {s : State} (hm : s.ctl.mode = .run) (l : List Entry) : Keeps s (setOpenStage l s) :=
  ⟨fun h => { h with staged := fun _ => hm }, id, id⟩

theorem tornWrite_keeps (g : Bool) (n : WinIdx) (o : Outstanding) (s : State) : Keeps s (tornWrite g n o s) := by
  have torn : Keeps s (markTorn s) := .of_view rfl
  unfold tornWrite
  dsimp only
  split
  · exact ((torn.trans (writeImage_keeps n _ _ _ _ _)).trans (endAccess_keeps _ _ _)).trans (latch_keeps _ _)
  · refine Keeps.trans ?_ (latch_keeps _ _)
    have waits := torn.trans (waitFor_keeps (.service .torn) o.took _)
    split
    · exact waits.trans (grantController_keeps _)
    · exact waits

theorem stageWrite_keeps {s : State} (hm : s.ctl.mode = .run) (g : Bool) (n : WinIdx) (o : Outstanding) :
    Keeps s (stageWrite g n o s) := by
  unfold stageWrite
  dsimp only
  (repeat' split)
  · exact (setOpenStage_keeps hm _).trans (endAccess_keeps _ _ _)
  · exact (setOpenStage_keeps hm _).trans (endAccess_keeps _ _ _)
  · exact waitFor_keeps _ _ s
  · exact tornWrite_keeps g n o s

theorem boundaryMark_keeps {s : State} (hm : s.ctl.mode = .run) (hq : s.release.queue.length < Config.queueLimit) (o : Outstanding) :
    Keeps s (waitFor (.service .pass) o.took (boundary s)) :=
  (boundary_keeps hm hq).trans (waitFor_keeps _ _ _)

theorem markInRun_keeps {s : State} (hm : s.ctl.mode = .run) (o : Outstanding) : Keeps s (markInRun o s) := by
  unfold markInRun
  dsimp only
  split
  · exact (waitFor_keeps _ o s).trans (latch_keeps _ _)
  · rename_i hq
    have taken := boundaryMark_keeps hm (Nat.lt_of_not_le hq) o
    split
    · exact taken.trans (latch_keeps _ _)
    · exact taken

theorem route_keeps (g : Bool) (o : Outstanding) (s : State) : Keeps s (route g o s) := by
  have noted : Keeps s (waitFor (.service .pass) o.took s) := waitFor_keeps _ _ _
  unfold route
  dsimp only
  split
  · rename_i ht
    split
    · exact noted
    · exact (firstMark_keeps (mode_of_firstMark ht)).trans (waitFor_keeps _ _ _)
  · rename_i ht
    split
    · exact waitFor_keeps _ _ s
    · exact markInRun_keeps (mode_of_boundary ht) o
  · (repeat' split)
    · exact waitFor_keeps _ _ s
    · exact (noted.trans (grantController_keeps _)).trans (latch_keeps _ _)
    · exact noted.trans (latch_keeps _ _)
  · split
    · exact endAccess_keeps _ _ s
    · exact (endAccess_keeps true 0 s).trans (latch_keeps _ _)
  · rename_i ht
    split
    · exact .refl s
    · exact stageWrite_keeps (mode_of_staged ht) g _ o
  · exact .of_view (by simp [State.modeView])

theorem reroute_keeps (b s : State) : Keeps s (reroute b s) := by
  unfold reroute
  (repeat' split)
  · exact route_keeps false _ s
  · exact .refl s
  · exact .refl s

/-! ## The end of a Memory Port access, and retirement -/

theorem passAnew_keeps (s : State) : Keeps s (passAnew s) := by
  unfold passAnew
  (repeat' split)
  · exact route_keeps false _ s
  · exact .refl s
  · exact .refl s

theorem clearOwedAt_keeps (n : WinIdx) (a : Addr) (l : Lanes) (s : State) : Keeps s (clearOwedAt n a l s) :=
  .of_view (by simp [State.modeView])

theorem endShared_keeps (ok : Bool) (d : Word) (s : State) : Keeps s (endShared ok d s) := .of_view (by simp [State.modeView])

theorem ownerEnd_keeps (p : PortAccess) (ok : Bool) (d : Word) (s : State) : Keeps s (ownerEnd p ok d s) := by
  have sampled : ∀ n f, Keeps s (if ok then storeSample n p.addr d f s else s) := fun n f => by
    split
    · exact .of_view (by simp [State.modeView])
    · exact .refl s
  unfold ownerEnd
  split
  · exact endAccess_keeps _ _ s
  · exact (writeImage_keeps _ _ _ _ _ s).trans (endAccess_keeps _ _ _)
  · exact (writeImage_keeps _ _ _ _ _ s).trans (endAccess_keeps _ _ _)
  · exact endAccess_keeps _ _ s
  · exact (sampled _ true).trans (endAccess_keeps _ _ _)
  · exact (clearOwedAt_keeps _ _ _ s).trans (freeHeadEntry_keeps _)
  · exact .refl s
  · exact clearOwedAt_keeps _ _ _ s
  · split
    · exact .refl s
    · exact clearOwedAt_keeps _ _ _ s
  · exact clearOwedAt_keeps _ _ _ s
  · exact clearOwedAt_keeps _ _ _ s
  · exact .refl s
  · exact .refl s
  · exact .refl s
  · exact (sampled _ _).trans (endShared_keeps ok d _)
  · exact passAnew_keeps s

theorem accessEnded_keeps (ok : Bool) (d : Word) (s : State) : Keeps s (accessEnded ok d s) := by
  unfold accessEnded
  split
  · exact .refl s
  · rename_i p _
    refine Keeps.trans ?_ (followLevel_keeps _ _)
    have free : Keeps s (s.setMp none) := .of_view rfl
    have ended : Keeps s (ownerEnd p ok d (s.setMp none)) := free.trans (ownerEnd_keeps p ok d _)
    have latched : Keeps s (if ok then ownerEnd p ok d (s.setMp none) else latch .memory (ownerEnd p ok d (s.setMp none))) := by
      split
      · exact ended
      · exact ended.trans (latch_keeps _ _)
    have gone : ∀ (c : Prop) [Decidable c] (u : State), Keeps s u → Keeps s (if c then goOn p.owner u else u) :=
      fun c _ u h => by
        split
        · exact h.trans (goOn_keeps _ _)
        · exact h
    exact gone _ _ latched

theorem Freeze.not_pending_of_opened {f : Freeze} (h : f = .opened) : ¬(f = .freezePending ∨ f = .thawPending) := by
  rw [h]
  decide

/-- The head record leaves the queue, and ENDING with its last record (R30, R94). -/
theorem Keeps.of_tail {s t : State} {m : Mode} (hv : t.modeView = { s.modeView with queue := s.release.queue.tail, mode := m })
    (hm : m = s.ctl.mode ∧ (m = .ending → s.release.queue.tail ≠ []) ∨
      m = .idle ∧ s.ctl.mode = .ending ∧ s.release.queue.tail = []) : Keeps s t := by
  have hs : t.sampler = s.sampler := congrArg ModeView.sampler hv
  have hq : t.release.queue = s.release.queue.tail := congrArg ModeView.queue hv
  refine ⟨fun h => ?_, fun ho => hs ▸ ho, fun ho => by rw [hq]; exact fun r hr => ho r (List.mem_of_mem_tail hr)⟩
  have shorter : s.release.queue.tail.length ≤ Config.queueLimit := by
    rw [List.length_tail]
    exact Nat.le_trans (Nat.sub_le _ _) h.limit
  rw [hv]
  rcases hm with ⟨rfl, he⟩ | ⟨rfl, hm, ht⟩
  · exact { h with
      queue := fun hn => h.queue fun hq => hn (by rw [show s.release.queue = [] from hq]; rfl), ending := he, limit := shorter }
  · have ending : s.modeView.mode = .ending := hm
    have none_of : ∀ {p : Prop}, (p → s.modeView.mode = .run) → ¬p := fun h hp => by simp [ending] at h; exact h hp
    have untimed : ¬s.modeView.mode.timed := by simp [ending, Mode.timed]
    have opened : ∀ n : WinIdx, (s.win[n]).freeze = .opened := fun n => h.opened n (.inr (.inr (.inl ending)))
    refine { opened := fun n _ => opened n, freezing := fun n hn => ?_, stop := fun hp => absurd hp (none_of h.stop),
             staged := fun hp => absurd hp (none_of h.staged), sampling := fun hp => absurd hp (none_of h.sampling),
             running := ?_, watchdog := ?_, queue := fun hn => absurd ht hn, ending := by simp, limit := shorter,
             firstFlush := fun hn => absurd (h.firstFlush hn) untimed, filling := fun hf => absurd (h.filling hf) (by simp [ending]),
             resuming := h.resuming, resumingSafe := fun hr => absurd (h.resumingSafe hr) (by simp [ending]),
             command := fun _ => .inr rfl }
    · exact absurd hn (Freeze.not_pending_of_opened (opened n))
    · simpa [Mode.timed] using (not_congr h.running).2 untimed
    · have := (not_congr h.watchdog).2 untimed
      simpa [Mode.timed] using this

theorem retire_keeps (s : State) : Keeps s (retire s) := by
  have left : (s.release.queue.tail = [] → s.ctl.mode ≠ .ending) → Keeps s (s.setRelease ⟨s.release.queue.tail, none, false⟩) :=
    fun h => .of_tail (m := s.ctl.mode) rfl (.inl ⟨rfl, fun hm ht => h ht hm⟩)
  unfold retire
  dsimp only
  split
  · rename_i ht
    split
    · rename_i hm
      exact .of_tail (m := .idle) rfl (.inr ⟨rfl, hm, ht⟩)
    · rename_i hm
      exact left fun _ => hm
  · rename_i ht
    exact (left fun h => absurd h ht).trans (settleHead_keeps _)

theorem releaseMark_keeps {s : State} (hm : s.ctl.mode = .run) (o : Outstanding) : Keeps s (releaseMark o s) := by
  unfold releaseMark stalledBoundary
  dsimp only
  split
  · rename_i hq
    refine Keeps.trans ?_ (followLevel_keeps _ _)
    have taken := boundaryMark_keeps hm hq o
    split
    · exact taken.trans (latch_keeps _ _)
    · exact taken
  · exact .refl s

theorem retireWhole_keeps (s : State) : Keeps s (retireWhole s) := by
  unfold retireWhole afterRetirement
  (repeat' split)
  · rename_i h
    exact (retire_keeps s).trans (releaseMark_keeps h.2 _)
  · exact (retire_keeps s).trans (reroute_keeps s _)
  · exact retire_keeps s

/-! ## Freezing and thawing -/

/-- Freeze states have changed as Table 7-2 lets them, and with them the first-flush set in ARMED and the fill in SAFE. -/
theorem Keeps.of_freezing {s t : State} {ws : Windows} {l : List WinIdx} {b : Bool}
    (hv : t.modeView = { s.modeView with win := ws, firstFlush := l, filling := b })
    (hd : ∀ n : WinIdx, (ws[n]).defined = (s.win[n]).defined)
    (ho : ∀ n : WinIdx, ((s.win[n]).defined = false ∨ s.ctl.mode = .idle ∨ s.ctl.mode = .ending ∨ s.ctl.stopPending = true) →
      (s.win[n]).freeze = .opened → (ws[n]).freeze = .opened)
    (hp : ∀ n : WinIdx, (ws[n]).freeze = (s.win[n]).freeze ∨ (ws[n]).freeze = .opened ∨ (ws[n]).freeze = .frozen ∨ s.ctl.mode = .run)
    (hl : l ≠ [] → s.freeze.firstFlush ≠ [] ∨ s.ctl.mode = .armed) (hb : b = true → s.fill.active = true ∨ s.ctl.mode = .safe) :
    Keeps s t := by
  have hs : t.sampler = s.sampler := congrArg ModeView.sampler hv
  have hq : t.release.queue = s.release.queue := congrArg ModeView.queue hv
  refine ⟨fun h => ?_, fun h => hs ▸ h, fun h => hq ▸ h⟩
  rw [hv]
  refine { h with
    opened := fun n hn => ?_, freezing := fun n hn => ?_, firstFlush := fun hn => (hl hn).elim h.firstFlush .inl,
    filling := fun hn => (hb hn).elim h.filling id }
  · have hn : (s.win[n]).defined = false ∨ s.ctl.mode = .idle ∨ s.ctl.mode = .ending ∨ s.ctl.stopPending = true := by rwa [← hd n]
    exact ho n hn (h.opened n hn)
  · rcases hp n with e | e | e | e
    · exact h.freezing n (by rwa [← show (ws[n]).freeze = (s.modeView.win[n]).freeze from e])
    · exact absurd hn (Freeze.not_pending_of_opened e)
    · rw [show (_ : Window).freeze = Freeze.frozen from e] at hn
      exact absurd hn (by decide)
    · exact e

/-- Windows with the freeze states they had. -/
theorem Keeps.of_same_freeze {s t : State} {ws : Windows} (hv : t.modeView = { s.modeView with win := ws })
    (h : ∀ n : WinIdx, (ws[n]).defined = (s.win[n]).defined ∧ (ws[n]).freeze = (s.win[n]).freeze) : Keeps s t :=
  .of_freezing (l := s.freeze.firstFlush) (b := s.fill.active) hv (fun n => (h n).1) (fun n _ ho => (h n).2 ▸ ho)
    (fun n => .inl (h n).2) .inl .inl

theorem thawTo_opened (m : Mode) : thawTo m .opened = .opened := by
  cases m <;> rfl

/-- THAW leaves a freeze state, opens the window, or acts in RUN (Table 7-2). -/
theorem thawTo_cases (m : Mode) (f : Freeze) : thawTo m f = f ∨ thawTo m f = .opened ∨ thawTo m f = .frozen ∨ m = .run := by
  cases m <;> cases f <;> simp [thawTo]

/-- FREEZE leaves a freeze state, freezes the window, or acts in RUN (Table 7-2). -/
theorem freezeTo_cases (m : Mode) (f : Freeze) : freezeTo m f = f ∨ freezeTo m f = .opened ∨ freezeTo m f = .frozen ∨ m = .run := by
  cases m <;> cases f <;> simp [freezeTo]

theorem setFreezeState_cases (ws : Windows) (n m : WinIdx) (f : Freeze) :
    (m = n ∧ ((setFreezeState ws n f)[m]).freeze = f) ∨ (m ≠ n ∧ ((setFreezeState ws n f)[m]).freeze = (ws[m]).freeze) := by
  rw [setFreezeState_get]
  by_cases h : n = m
  · exact .inl ⟨h.symm, by rw [if_pos h]⟩
  · exact .inr ⟨Ne.symm h, by rw [if_neg h]⟩

theorem freezeWindow_keeps {n : WinIdx} {s : State} (hi : s.ctl.mode ≠ .idle) (he : s.ctl.mode ≠ .ending)
    (hp : s.ctl.stopPending = false) (hd : (s.win[n]).defined = true) : Keeps s (freezeWindow n s) := by
  have hw : (freezeWindow n s).win = setFreezeState s.win n (freezeTo s.ctl.mode (s.win[n]).freeze) := by
    unfold freezeWindow
    dsimp only
    split <;> rfl
  have hl : (freezeWindow n s).freeze.firstFlush ≠ [] → s.freeze.firstFlush ≠ [] := by
    unfold freezeWindow
    dsimp only
    split
    · intro h he
      exact h (by simp [setWindows_firstFlush, he])
    · rw [setWindows_firstFlush]
      exact id
  refine .of_freezing (ws := setFreezeState s.win n (freezeTo s.ctl.mode (s.win[n]).freeze)) (l := (freezeWindow n s).freeze.firstFlush)
    (b := s.fill.active) (by simp [State.modeView, hw]) (fun m => (setFreezeState_rest _ _ _ _).2.2) (fun m hm ho => ?_) (fun m => ?_)
    (fun h => .inl (hl h)) .inl
  · rcases setFreezeState_cases s.win n m (freezeTo s.ctl.mode (s.win[n]).freeze) with ⟨rfl, -⟩ | ⟨-, e⟩
    · rcases hm with h | h | h | h
      · exact absurd (h.symm.trans hd) Bool.false_ne_true
      · exact absurd h hi
      · exact absurd h he
      · exact absurd (hp.symm.trans h) Bool.false_ne_true
    · exact e.trans ho
  · rcases setFreezeState_cases s.win n m (freezeTo s.ctl.mode (s.win[n]).freeze) with ⟨rfl, e⟩ | ⟨-, e⟩
    · rw [e]
      exact freezeTo_cases _ _
    · exact .inl e

/-- Windows of which some are thawed by the rule of the mode. -/
theorem Keeps.of_thawing {s t : State} {ws : Windows} {l : List WinIdx} {b : Bool}
    (hv : t.modeView = { s.modeView with win := ws, firstFlush := l, filling := b })
    (hd : ∀ n : WinIdx, (ws[n]).defined = (s.win[n]).defined)
    (hw : ∀ n : WinIdx, (ws[n]).freeze = (s.win[n]).freeze ∨ (ws[n]).freeze = thawTo s.ctl.mode (s.win[n]).freeze)
    (hl : l ≠ [] → s.freeze.firstFlush ≠ [] ∨ s.ctl.mode = .armed) (hb : b = true → s.fill.active = true ∨ s.ctl.mode = .safe) :
    Keeps s t := by
  refine .of_freezing hv hd (fun n _ ho => ?_) (fun n => ?_) hl hb
  · rcases hw n with e | e
    · exact e.trans ho
    · rw [e, ho, thawTo_opened]
  · rcases hw n with e | e
    · exact .inl e
    · rw [e]
      exact thawTo_cases _ _

theorem thawWindow_keeps (n : WinIdx) (s : State) : Keeps s (thawWindow n s) := by
  have hw : (thawWindow n s).win = setFreezeState s.win n (thawTo s.ctl.mode (s.win[n]).freeze) := by
    unfold thawWindow
    dsimp only
    (repeat' split) <;> simp
  have hl : (thawWindow n s).freeze.firstFlush ≠ [] → s.freeze.firstFlush ≠ [] ∨ s.ctl.mode = .armed := by
    unfold thawWindow
    dsimp only
    (repeat' split)
    · exact fun _ => .inr ‹_›
    all_goals
      intro h
      simp only [handOver_frame, setWindows_firstFlush] at h
      exact .inl h
  have hb : (thawWindow n s).fill.active = true → s.fill.active = true ∨ s.ctl.mode = .safe := by
    unfold thawWindow
    dsimp only
    (repeat' split)
    · exact .inl
    · exact fun _ => .inr ‹_›
    · exact .inl
    · exact .inl
  refine .of_thawing (ws := setFreezeState s.win n (thawTo s.ctl.mode (s.win[n]).freeze)) (by simp [State.modeView, hw])
    (fun m => (setFreezeState_rest _ _ _ _).2.2) (fun m => ?_) hl hb
  rcases setFreezeState_cases s.win n m (thawTo s.ctl.mode (s.win[n]).freeze) with ⟨rfl, e⟩ | ⟨-, e⟩
  · exact .inr e
  · exact .inl e

/-- The windows when THAW has been applied to those of a list (R118). -/
def thawSet (l : List WinIdx) (s : State) : Windows :=
  mapWin (fun n w => if n ∈ l then { w with freeze := thawTo s.ctl.mode w.freeze } else w) s.win

/-- THAW applied to the windows of a list, before the access that waits is routed anew (R118). -/
def thawed (l : List WinIdx) (s : State) : State :=
  match s.ctl.mode with
  | .armed => (setWindows (thawSet l s) s).setFreeze
      { (setWindows (thawSet l s) s).freeze with firstFlush := joinWin (setWindows (thawSet l s) s).freeze.firstFlush l }
  | .safe => l.foldl (fun t n => handOver n t) (setWindows (thawSet l s) s)
  | _ => setWindows (thawSet l s) s

theorem thawAll_eq (l : List WinIdx) (s : State) : thawAll l s = reroute s (thawed l s) := rfl

theorem thawSet_defined (l : List WinIdx) (s : State) (n : WinIdx) : ((thawSet l s)[n]).defined = (s.win[n]).defined := by
  rw [thawSet, mapWin_get]
  split <;> rfl

theorem thawSet_freeze (l : List WinIdx) (s : State) (n : WinIdx) : ((thawSet l s)[n]).freeze =
    if n ∈ l then thawTo s.ctl.mode (s.win[n]).freeze else (s.win[n]).freeze := by
  rw [thawSet, mapWin_get]
  split <;> rfl

theorem thawAll_keeps (l : List WinIdx) (s : State) : Keeps s (thawAll l s) := by
  have hw : ∀ n : WinIdx, ((thawSet l s)[n]).freeze = (s.win[n]).freeze ∨
      ((thawSet l s)[n]).freeze = thawTo s.ctl.mode (s.win[n]).freeze := fun n => by
    rw [thawSet_freeze]
    split
    · exact .inr rfl
    · exact .inl rfl
  rw [thawAll_eq]
  refine Keeps.trans ?_ (reroute_keeps s _)
  unfold thawed
  split
  · exact .of_thawing (l := joinWin (setWindows (thawSet l s) s).freeze.firstFlush l) (b := s.fill.active) rfl (thawSet_defined l s) hw
      (fun _ => .inr ‹_›) .inl
  · exact .of_thawing (l := s.freeze.firstFlush) (b := (l.foldl (fun t n => handOver n t) (setWindows (thawSet l s) s)).fill.active)
      (by simp [State.modeView, setWindows_firstFlush]) (thawSet_defined l s) hw .inl (fun _ => .inr ‹_›)
  · exact .of_thawing (l := s.freeze.firstFlush) (b := s.fill.active) (by simp [State.modeView, setWindows_firstFlush])
      (thawSet_defined l s) hw .inl .inl

theorem freezeExpiry_keeps (b : Bool) (s : State) : Keeps s (freezeExpiry b s) := by
  have stopped : Keeps s (s.setFreeze { s.freeze with running := false }) := .of_view rfl
  unfold freezeExpiry
  dsimp only
  split
  · exact (stopped.trans (latch_keeps _ _)).trans (thawAll_keeps _ _)
  · exact (stopped.trans (thawAll_keeps _ _)).trans (latch_keeps _ _)

/-! ## The commands that change the mode, and the commands in flight -/

theorem answer_keeps (a : Status) (d : Word) (s : State) : Keeps s (answer a d s) := .of_view rfl

theorem ackReply_keeps (s : State) : Keeps s (ackReply s) := .of_view rfl

/-- A bridge resumes in SAFE alone (R146). -/
theorem ModeView.Allowed.not_resuming {v : ModeView} (h : v.Allowed) (hm : v.mode ≠ .safe) : v.resuming = false := by
  rw [← Bool.not_eq_true]
  exact fun hr => hm (h.resumingSafe hr)

/-- START is taken in IDLE (R19). -/
theorem startRun_keeps {s : State} (hm : s.ctl.mode = .idle) (hc : s.mg.command = none) : Keeps s (startRun s) := by
  have hv : (startRun s).modeView = { s.modeView with
      mode := .armed, stopPending := false, running := true, watchdog := .running } := rfl
  refine ⟨fun h => ?_, id, id⟩
  have idle : s.modeView.mode = .idle := hm
  have opened : ∀ n : WinIdx, (s.win[n]).freeze = .opened := fun n => h.opened n (.inr (.inl idle))
  rw [hv]
  exact {
    opened := fun n _ => opened n
    freezing := fun n hn => absurd hn (Freeze.not_pending_of_opened (opened n))
    stop := by simp
    staged := fun hn => absurd (h.staged hn) (by simp [idle])
    sampling := fun hn => absurd (h.sampling hn) (by simp [idle])
    running := by simp [Mode.timed]
    watchdog := by simp [Mode.timed]
    queue := fun hn => absurd (h.queue hn) (by simp [idle])
    ending := by simp
    limit := h.limit
    firstFlush := fun hn => absurd (h.firstFlush hn) (by simp [idle, Mode.timed])
    filling := fun hn => absurd (h.filling hn) (by simp [idle])
    resuming := h.resuming
    resumingSafe := fun hn => absurd (h.resumingSafe hn) (by simp [idle])
    command := fun hn => absurd hc hn }

theorem allOpen_iff (ws : Windows) : allOpen ws = true ↔ ∀ n : WinIdx, (ws[n]).freeze = .opened := by
  simp [allOpen, mem_allWin]

/-- STOP in RUN: every window is OPEN, and stop-pending is set (R26). -/
theorem stopPending_keeps {s : State} (hm : s.ctl.mode = .run) (ho : allOpen s.win = true) :
    Keeps s (s.setCtl { s.ctl with stopPending := true }) :=
  ⟨fun h => { h with
    opened := fun n _ => (allOpen_iff s.win).1 ho n
    stop := fun _ => hm }, id, id⟩

theorem stopArmed_keeps {s : State} (hm : s.ctl.mode = .armed) (ho : allOpen s.win = true) : Keeps s (stopArmed s) := by
  have hv : (stopArmed s).modeView = { s.modeView with
      mode := .idle, running := false, watchdog := .stopped, firstFlush := [] } := rfl
  refine ⟨fun h => ?_, id, id⟩
  have armed : s.modeView.mode = .armed := hm
  have opened : ∀ n : WinIdx, (s.win[n]).freeze = .opened := (allOpen_iff s.win).1 ho
  rw [hv]
  exact {
    opened := fun n _ => opened n
    freezing := fun n hn => absurd hn (Freeze.not_pending_of_opened (opened n))
    stop := fun hn => absurd (h.stop hn) (by simp [armed])
    staged := fun hn => absurd (h.staged hn) (by simp [armed])
    sampling := fun hn => absurd (h.sampling hn) (by simp [armed])
    running := by simp [Mode.timed]
    watchdog := by simp [Mode.timed]
    queue := fun hn => absurd (h.queue hn) (by simp [armed])
    ending := by simp
    limit := h.limit
    firstFlush := by simp
    filling := fun hn => absurd (h.filling hn) (by simp [armed])
    resuming := h.resuming
    resumingSafe := fun hn => absurd (h.resumingSafe hn) (by simp [armed])
    command := fun _ => .inr rfl }

/-- No window of a bridge in SAFE waits to be frozen or thawed (Table 7-1). -/
theorem ModeView.Allowed.not_pending {v : ModeView} (h : v.Allowed) (hm : v.mode ≠ .run) (n : WinIdx) :
    ¬((v.win[n]).freeze = .freezePending ∨ (v.win[n]).freeze = .thawPending) := fun hn => hm (h.freezing n hn)

theorem stopSafe_keeps {s : State} (hm : s.ctl.mode = .safe) (hf : s.fill.active = false) (hz : frozenNow s.win = [])
    (hc : s.mg.command = none) : Keeps s (stopSafe s) := by
  have hv : (stopSafe s).modeView = { s.modeView with mode := .idle } := rfl
  refine ⟨fun h => ?_, id, id⟩
  have safe : s.modeView.mode = .safe := hm
  have opened : ∀ n : WinIdx, (s.win[n]).freeze = .opened := fun n => by
    have pending := h.not_pending (by simp [safe]) n
    have frozen : ¬(s.win[n]).freeze = .frozen := by simpa using List.filter_eq_nil_iff.1 hz n (mem_allWin n)
    change ¬((s.win[n]).freeze = .freezePending ∨ (s.win[n]).freeze = .thawPending) at pending
    generalize (s.win[n]).freeze = f at pending frozen
    cases f <;> simp at pending frozen ⊢
  rw [hv]
  exact {
    opened := fun n _ => opened n
    freezing := fun n hn => absurd hn (Freeze.not_pending_of_opened (opened n))
    stop := fun hn => absurd (h.stop hn) (by simp [safe])
    staged := fun hn => absurd (h.staged hn) (by simp [safe])
    sampling := fun hn => absurd (h.sampling hn) (by simp [safe])
    running := by simpa [safe, Mode.timed] using h.running
    watchdog := by simpa [safe, Mode.timed] using h.watchdog
    queue := fun hn => absurd (h.queue hn) (by simp [safe])
    ending := by simp
    limit := h.limit
    firstFlush := fun hn => absurd (h.firstFlush hn) (by simp [safe, Mode.timed])
    filling := fun hn => absurd (hf.symm.trans hn) Bool.false_ne_true
    resuming := h.resuming
    resumingSafe := fun hn => absurd (hc.symm.trans (h.resuming.1 hn)) (by simp)
    command := fun _ => .inr rfl }

/-- The entry to ARMED by a resumption (R32, R145, R148). -/
theorem enterArmed_keeps {s : State} (hm : s.ctl.mode = .safe) (hf : s.fill.active = false) (hc : s.mg.command = none) :
    Keeps s (enterArmed s) := by
  have hv : (enterArmed s).modeView = { s.modeView with
      mode := .armed, running := true, watchdog := .running,
      firstFlush := joinWin s.freeze.firstFlush (owedOpenOutputs s.win s.image) } := rfl
  refine ⟨fun h => ?_, id, id⟩
  have safe : s.modeView.mode = .safe := hm
  rw [hv]
  exact {
    opened := fun n hn => h.opened n (hn.imp_right fun hn => by
      rcases hn with hn | hn | hn
      · cases hn
      · cases hn
      · exact .inr (.inr hn))
    freezing := fun n hn => absurd hn (h.not_pending (by simp [safe]) n)
    stop := fun hn => absurd (h.stop hn) (by simp [safe])
    staged := fun hn => absurd (h.staged hn) (by simp [safe])
    sampling := fun hn => absurd (h.sampling hn) (by simp [safe])
    running := by simp [Mode.timed]
    watchdog := by simp [Mode.timed]
    queue := fun hn => absurd (h.queue hn) (by simp [safe])
    ending := by simp
    limit := h.limit
    firstFlush := fun _ => .inl rfl
    filling := fun hn => absurd (hf.symm.trans hn) Bool.false_ne_true
    resuming := h.resuming
    resumingSafe := fun hn => absurd (hc.symm.trans (h.resuming.1 hn)) (by simp)
    command := fun hn => absurd hc hn }

theorem beginReissue_keeps {s : State} (hm : s.ctl.mode = .safe) : Keeps s (beginReissue s) := by
  unfold beginReissue
  refine Keeps.trans ?_ (reissueFrom_keeps 0 0 _)
  exact ⟨fun h => { h with resuming := by simp [State.modeView, takeInFlight], resumingSafe := fun _ => hm, command := fun _ => .inl rfl },
    id, id⟩

/-- COMMIT WINDOW and DROP WINDOW are taken in IDLE (R6, R9). -/
theorem takeInFlight_keeps {c : InFlight} {s : State} (hc : c ≠ .reissue) (hm : s.ctl.mode = .idle) : Keeps s (takeInFlight c s) := by
  refine ⟨fun h => ?_, id, id⟩
  have hr := h.not_resuming (by simp [show s.modeView.mode = .idle from hm])
  exact { h with
    resuming := by simp [State.modeView, takeInFlight, show s.reissue.resuming = false from hr, hc]
    command := fun _ => .inr hm }

/-- A reissue in flight ends (R148). -/
theorem reissueDone_keeps (r : Reason) (s : State) :
    Keeps s (complete r (s.setReissue { s.reissue with resuming := false, position := none })) :=
  ⟨fun h => { h with
    resuming := by simp [State.modeView, complete]
    resumingSafe := by simp [State.modeView, complete]
    command := by simp [State.modeView, complete] }, id, id⟩

/-- A command in flight other than a reissue completes, one window having been replaced by an OPEN one or having kept its freeze state
(R7 to R9). -/
theorem windowDone_keeps {s t : State} {c : InFlight} {ws : Windows} (hv : t.modeView = { s.modeView with win := ws, command := none })
    (hc : s.mg.command = some c) (hr : c ≠ .reissue)
    (hw : ∀ n : WinIdx, (ws[n]).freeze = .opened ∨ (ws[n]).freeze = (s.win[n]).freeze) : Keeps s t := by
  have hs : t.sampler = s.sampler := congrArg ModeView.sampler hv
  have hq : t.release.queue = s.release.queue := congrArg ModeView.queue hv
  refine ⟨fun h => ?_, fun h => hs ▸ h, fun h => hq ▸ h⟩
  have resuming : s.modeView.resuming = false := by
    rw [← Bool.not_eq_true, h.resuming]
    exact fun e => hr (Option.some.inj (hc.symm.trans e))
  have idle : s.modeView.mode = .idle := by
    refine (h.command ?_).resolve_left (by simp [resuming])
    simp [State.modeView, hc]
  have opened : ∀ n : WinIdx, (ws[n]).freeze = .opened := fun n =>
    (hw n).elim id fun e => e.trans (h.opened n (.inr (.inl idle)))
  rw [hv]
  exact { h with
    opened := fun n _ => opened n
    freezing := fun n hn => absurd hn (Freeze.not_pending_of_opened (opened n))
    resuming := by simp [resuming]
    command := by simp }

/-! ## Every step -/

theorem Written.keepsModes {s t : State} (h : Written s t) : Keeps s t := by
  cases h with
  | latched c u =>
    have h : Keeps s (s.setCauses u) := .of_view rfl
    exact (h.trans (latch_keeps c _)).trans (ackReply_keeps _)
  | followed c u =>
    have h : Keeps s (s.setCauses u) := .of_view rfl
    exact (h.trans (followLevel_keeps c _)).trans (ackReply_keeps _)
  | threshold x =>
    have h : Keeps s (s.setPool { s.pool with threshold := x }) := .of_view rfl
    exact (h.trans (followLevel_keeps _ _)).trans (ackReply_keeps _)
  | timing x hr hw =>
    have h : Keeps s (s.setTiming x) := .of_view (by simp [State.modeView, hr, hw])
    exact h.trans (ackReply_keeps _)
  | descriptor n d =>
    have h : Keeps s (putWindow n { s.win[n] with descriptor := d } s) := .of_same_freeze (ws := (putWindow n _ s).win) rfl fun m => by
      rw [putWindow_win]
      split
      · rename_i e; rw [e]; exact ⟨rfl, rfl⟩
      · exact ⟨rfl, rfl⟩
    exact h.trans (ackReply_keeps _)
  | _ => exact .of_view rfl

theorem Commanded.keepsModes {s t : State} (h : Commanded s t) (hn : s.mg.command = none) : Keeps s t := by
  have acked : ∀ u, Keeps s u → Keeps s (ackReply (reroute s u)) := fun u h =>
    (h.trans (reroute_keeps s u)).trans (ackReply_keeps _)
  cases h with
  | answered a d => exact answer_keeps a d s
  | started hm => exact acked _ (startRun_keeps hm hn)
  | stopPending hm ho => exact (stopPending_keeps hm ho).trans (ackReply_keeps _)
  | stopArmed hm ho => exact acked _ (stopArmed_keeps hm ho)
  | stopSafe hm hf hz => exact acked _ (stopSafe_keeps hm hf hz hn)
  | resumedFresh hm hf => exact acked _ (enterArmed_keeps hm hf hn)
  | resumedReissue hm hf => exact (beginReissue_keeps hm).trans (answer_keeps _ _ _)
  | enteredSafe hm => exact (enterSafe_keeps hm).trans (ackReply_keeps _)
  | frozen n hi he hp hd => exact acked _ (freezeWindow_keeps hi he hp hd)
  | thawed n hi he hp hd => exact acked _ (thawWindow_keeps n s)
  | windowCommand c hc hm => exact (takeInFlight_keeps hc hm).trans (answer_keeps _ _ _)
  | unlocked => exact .of_view rfl
  | clearedLongest => exact .of_view rfl

/-- A reset leaves what the invariants read as it is after power-on. -/
theorem Keeps.of_reset {s t : State} (h : t.modeView = State.reset.modeView) : Keeps s t := by
  have allowed := (modeInv_iff State.reset).1 invariantsAtReset.2.1
  obtain ⟨sampler, queue⟩ := (orderInv_iff State.reset).1 invariantsAtReset.2.2.1
  have hs : t.sampler = State.reset.sampler := congrArg ModeView.sampler h
  have hq : t.release.queue = State.reset.release.queue := congrArg ModeView.queue h
  exact ⟨fun _ => h ▸ allowed, fun _ => hs ▸ sampler, fun _ => hq ▸ queue⟩

theorem Requested.keepsModes {s t : State} (h : Requested s t) : Keeps s t := by
  cases h with
  | answered a d => exact answer_keeps a d s
  | busy => exact .of_view rfl
  | reset straps => exact .of_reset rfl
  | read it d =>
    refine Keeps.trans ?_ (answer_keeps _ _ _)
    cases it <;> exact .of_view rfl
  | written t h => exact h.keepsModes
  | commanded t hn h => exact h.keepsModes hn

theorem poweredOn_keeps (pins : PowerPins) (s : State) : Keeps s (effect (.powerOn pins) s) := by
  refine .of_reset ?_
  change (if s.lines.resetHeld then _ else latchPowerOn _ : State).modeView = _
  split <;> rfl

theorem resetNegated_keeps (straps : BitVec 3) (sel : Bool) (s : State) : Keeps s (effect (.resetInputNegated straps sel) s) := by
  change Keeps s (if s.lines.resetHeld then latchPowerOn _ else s)
  split
  · exact .of_view rfl
  · exact .refl s

/-- The reissue ends, and the bridge enters ARMED: while it resumes it is in SAFE. -/
theorem reissueEnded_keeps {s : State} (hr : s.reissue.resuming = true) (hf : s.fill.active = false) :
    Keeps s (complete .ok (enterArmed (s.setReissue { s.reissue with resuming := false, position := none }))) := by
  refine ⟨fun h => ?_, id, id⟩
  have armed := enterArmed_keeps (s := complete .ok (s.setReissue { s.reissue with resuming := false, position := none }))
    (h.resumingSafe hr) hf rfl
  exact ((reissueDone_keeps .ok s).trans armed).allowed h

theorem watchdogExpired_keeps {s : State} (h : s.timing.wdState = .running) :
    Keeps s (s.setTiming { s.timing with wdState := .expired }) := by
  refine ⟨fun ha => { ha with watchdog := ?_ }, id, id⟩
  have := ha.watchdog
  simpa [State.modeView, h] using this

theorem closeFrame_keeps (s : State) : Keeps s (closeFrame s) := .of_view rfl

theorem Happened.keepsModes {s t : State} (h : Happened s t) : Keeps s t := by
  cases h with
  | poweredOn pins => exact poweredOn_keeps pins s
  | resetAsserted => exact .of_reset rfl
  | resetNegated straps sel => exact resetNegated_keeps straps sel s
  | resetBroadcast straps hr => exact .of_reset rfl
  | fltIn l hr h =>
    have h : Keeps s (s.setLines l) := .of_view rfl
    exact h.trans (followLevel_keeps _ _)
  | taken a g hc hr => exact (route_keeps g _ s).trans (followLevel_keeps _ _)
  | granted l hr =>
    have h : Keeps s (samplePort l s) := .of_view rfl
    exact h.trans (grantPort_keeps _)
  | ended l ok d hr =>
    have h : Keeps s (samplePort l s) := .of_view rfl
    exact h.trans (accessEnded_keeps ok d _)
  | timedOut hr => exact accessEnded_keeps false 0 s
  | poolStall o n hc ht => exact (stageWrite_keeps (mode_of_staged ht) false n o).trans (followLevel_keeps _ _)
  | retired hd => exact retireWhole_keeps s
  | markReleased o hm => exact releaseMark_keeps hm o
  | endingRouted o hc hw => exact route_keeps false o s
  | fillEnded f ha => exact .of_fill (b := f.active) rfl fun _ => .inl ha
  | reissueEnded hr hf => exact (reissueEnded_keeps hr hf).trans (reroute_keeps s _)
  | installed n hc hk =>
    refine windowDone_keeps (ws := (installWindow n s).win) rfl hc (by simp) fun m => ?_
    rw [installWindow_win]
    split
    · exact .inl rfl
    · exact .inr rfl
  | reloaded n r hc =>
    refine windowDone_keeps (ws := (putWindow n _ s).win) rfl hc (by simp) fun m => .inr ?_
    rw [putWindow_win]
    split
    · rename_i e; rw [e]
    · rfl
  | dropped n hc =>
    refine windowDone_keeps (ws := (dropDefined n s).win) (by simp [State.modeView, complete]) hc (by simp) fun m => ?_
    rw [dropDefined_win]
    split
    · exact .inl rfl
    · exact .inr rfl
  | watchdog hr hw => exact (watchdogExpired_keeps hw).trans (latch_keeps .wdog _)
  | freezeExpired b hr => exact freezeExpiry_keeps b s
  | latched c hr => exact latch_keeps c s
  | linkClosed hr => exact (latch_keeps .link s).trans (closeFrame_keeps _)
  | errored r hr =>
    have h : Keeps s (s.setMg { s.mg with frame := .errored, reply := r }) := .of_view rfl
    exact h.trans (latch_keeps .link _)
  | safeBroadcast hr hm => exact (closeFrame_keeps s).trans (enterSafe_keeps hm)
  | _ => exact .of_view rfl

/-- Settles O10: each operation keeps what the modes allow, under the mode it is taken in, and the order of the sets. -/
theorem modesKept : Obligations.ModesKept := by
  constructor
  · intro s t hs h
    exact step_keeps_of_cases (P := ModeInv) (fun s l h => h)
      (fun s t hs _ h => (modeInv_iff t).2 (h.keepsModes.allowed ((modeInv_iff s).1 hs)))
      (fun s t hs h => (modeInv_iff t).2 (h.keepsModes.allowed ((modeInv_iff s).1 hs))) hs h
  · have kept : ∀ s t, OrderInv s → Keeps s t → OrderInv t := fun s t hs h => by
      rw [orderInv_iff] at hs ⊢
      exact ⟨h.sampler hs.1, h.queue hs.2⟩
    intro s t hs h
    exact step_keeps_of_cases (P := OrderInv) (fun s l h => h) (fun s t hs _ h => kept s t hs h.keepsModes)
      (fun s t hs h => kept s t hs h.keepsModes) hs h

end Sys2Proof.Machine
end

section
/-! PROOF. Which operations begin an access on the Memory Port, and to which addresses: none but the grants, and those to no window that
is cut off from memory (R98, R15). -/

namespace Sys2Proof.Machine

/-- The access in flight in `t` is to the address of the one in flight in `s`, or, where `granted` allows it, has begun to an address that
no cut-off window of `s` covers. -/
def PortBegins (granted : Bool) (s t : State) : Prop :=
  ∀ p, t.mp = some p → (∃ q, s.mp = some q ∧ q.addr = p.addr) ∨ (granted = true ∧ cutOffAddr s.win p.addr = false)

theorem PortBegins.of_same {g : Bool} {s t : State} (h : t.mp = s.mp) : PortBegins g s t :=
  fun p hp => .inl ⟨p, h ▸ hp, rfl⟩

theorem PortBegins.refl (g : Bool) (s : State) : PortBegins g s s := .of_same rfl

theorem PortBegins.of_none {g : Bool} {s t : State} (h : t.mp = none) : PortBegins g s t :=
  fun p hp => absurd (h.symm.trans hp) (by simp)

/-- Only the owner of the access in flight has changed. -/
theorem PortBegins.of_owner {g : Bool} {s t : State} {f : PortAccess → Owner} (h : t.mp = s.mp.map fun p => { p with owner := f p }) :
    PortBegins g s t := by
  intro p hp
  rw [h] at hp
  obtain ⟨q, hq, rfl⟩ := Option.map_eq_some_iff.1 hp
  exact .inl ⟨q, hq, rfl⟩

/-- Nothing begins after what may have begun. -/
theorem PortBegins.trans {g : Bool} {s t u : State} (h : PortBegins g s t) (h' : PortBegins false t u) : PortBegins g s u := by
  intro p hp
  rcases h' p hp with ⟨q, hq, hqp⟩ | ⟨hf, -⟩
  · rcases h q hq with ⟨r, hr, hrq⟩ | ⟨hg, hc⟩
    · exact .inl ⟨r, hr, hrq.trans hqp⟩
    · exact .inr ⟨hg, hqp ▸ hc⟩
  · cases hf

/-- What begins, begins after the port and the windows have been left as they were. -/
theorem PortBegins.after {g : Bool} {s t u : State} (hm : t.mp = s.mp) (hw : t.win = s.win) (h : PortBegins g t u) : PortBegins g s u := by
  intro p hp
  rw [← hm, ← hw]
  exact h p hp

theorem PortBegins.of_grant {s : State} {p : PortAccess} {t : State} (h : mayBegin s p.addr = true) (ht : t.mp = some p) :
    PortBegins true s t := by
  intro q hq
  rw [ht] at hq
  cases hq
  exact .inr ⟨rfl, by simpa [mayBegin] using h⟩

/-! ## The walk, the fill, SAFE entry and latching -/

theorem crossMark_eq (mp : Option PortAccess) : crossMark mp = mp.map fun p => { p with owner := p.owner.crossMark } := rfl

theorem walkBegin_begins (ws : Windows) (s : State) : PortBegins false s (walkBegin ws s) := .of_owner (crossMark_eq s.mp)

theorem walkStop_begins (s : State) : PortBegins false s (walkStop s) := .of_owner (crossMark_eq s.mp)

theorem mapOwner_begins (f : Owner → Owner) (s : State) : PortBegins false s (mapOwner f s) := .of_owner (f := fun p => f p.owner) rfl

theorem handOver_begins (n : WinIdx) (s : State) : PortBegins false s (handOver n s) := by
  unfold handOver
  dsimp only
  split
  · split
    · exact .of_owner rfl
    · exact .of_same rfl
  · exact .refl _ s

theorem enterSafe_begins (s : State) : PortBegins false s (enterSafe s) := by
  have dropped : PortBegins false s (dropQueue (safeControl s)) := by
    unfold dropQueue
    refine PortBegins.trans ?_ (mapOwner_begins _ _)
    exact .of_same rfl
  have abandoned : PortBegins false s (walkAbandon (dropQueue (safeControl s))) :=
    dropped.trans (.of_owner (crossMark_eq _))
  exact abandoned.trans (.of_same (by simp [enterSafe]))

theorem abandonReissue_begins (s : State) : PortBegins false s (abandonReissue s) :=
  (mapOwner_begins Owner.staleWork s).trans (.of_same (by simp [abandonReissue]))

theorem latch_begins (c : Cause) (s : State) : PortBegins false s (latch c s) := by
  have set : PortBegins false s (s.setCauses (s.causes.setFlag c)) := .of_same rfl
  rcases latch_cases c s with e | e | ⟨-, e⟩ | ⟨-, -, e⟩ <;> rw [e]
  · exact .refl _ s
  · exact set
  · exact set.trans (enterSafe_begins _)
  · exact set.trans (abandonReissue_begins _)

theorem followLevel_begins (c : LevelCause) (s : State) : PortBegins false s (followLevel c s) := by
  rcases followLevel_cases c s with e | ⟨u, e⟩ <;> rw [e]
  · exact latch_begins c.cause s
  · exact .of_same rfl

/-! ## Boundary and routing -/

theorem boundary_begins (s : State) : PortBegins false s (boundary s) := by
  have pool : PortBegins false s (boundaryPool s) := by
    unfold boundaryPool
    refine PortBegins.trans ?_ (mapOwner_begins _ _)
    exact .of_same rfl
  have control : PortBegins false s (boundaryControl (boundaryFreeze (boundaryPool s))) := pool.trans (.of_same (by simp))
  have work : PortBegins false s (boundaryWork s) := by
    unfold boundaryWork boundaryWalk
    split
    · exact control.trans (walkStop_begins _)
    · exact control.trans (walkBegin_begins _ _)
  rw [boundary_eq]
  split
  · exact work.trans (.of_same (by simp))
  · exact work

theorem firstMark_begins (s : State) : PortBegins false s (firstMark s) := by
  unfold firstMark
  refine PortBegins.trans ?_ (walkBegin_begins _ _)
  exact .of_same rfl

theorem waitFor_begins (w : Wait) (o : Outstanding) (s : State) : PortBegins false s (waitFor w o s) := .of_same rfl

/-- A controller-service request begins no access to a window that is cut off (R98). -/
theorem grantController_begins (s : State) : PortBegins true s (grantController s) := by
  unfold grantController
  dsimp only
  (repeat' split)
  all_goals first
    | exact .of_same rfl
    | exact .of_grant (p := passAccess _ _) (by simpa using ‹¬(!mayBegin s _) = true›) rfl
    | exact .of_grant (p := ⟨_, false, _, 0, _⟩) (by simpa using ‹¬(!mayBegin s _) = true›) rfl

/-- A request that is granted the free port as its access is taken, or is not. -/
theorem grantFirst_begins (g : Bool) (b : Bool) (s : State) :
    PortBegins g s (if g && b then grantController s else s) := by
  cases g
  · exact .refl _ s
  · cases b
    · exact .refl _ s
    · exact grantController_begins s

theorem tornWrite_begins (g : Bool) (n : WinIdx) (o : Outstanding) (s : State) : PortBegins g s (tornWrite g n o s) := by
  unfold tornWrite
  dsimp only
  split
  · refine PortBegins.trans ?_ (latch_begins _ _)
    exact .of_same (by simp)
  · refine PortBegins.trans ?_ (latch_begins _ _)
    exact .after rfl rfl (grantFirst_begins g _ _)

theorem stageWrite_begins (g : Bool) (n : WinIdx) (o : Outstanding) (s : State) : PortBegins g s (stageWrite g n o s) := by
  unfold stageWrite
  dsimp only
  (repeat' split)
  · exact .of_same rfl
  · exact .of_same rfl
  · exact .of_same rfl
  · exact tornWrite_begins g n o s

theorem boundaryMark_begins (o : Outstanding) (s : State) : PortBegins false s (waitFor (.service .pass) o.took (boundary s)) :=
  (boundary_begins s).trans (waitFor_begins _ _ _)

theorem markInRun_begins (o : Outstanding) (s : State) : PortBegins false s (markInRun o s) := by
  unfold markInRun
  dsimp only
  (repeat' split)
  · exact (waitFor_begins _ o s).trans (latch_begins _ _)
  · exact (boundaryMark_begins o s).trans (latch_begins _ _)
  · exact boundaryMark_begins o s

theorem PortBegins.weaken {g : Bool} {s t : State} (h : PortBegins false s t) : PortBegins g s t :=
  (PortBegins.refl g s).trans h

theorem route_begins (g : Bool) (o : Outstanding) (s : State) : PortBegins g s (route g o s) := by
  unfold route
  dsimp only
  (repeat' split)
  · exact .of_same rfl
  · exact ((firstMark_begins s).trans (waitFor_begins _ _ _)).weaken
  · exact .of_same rfl
  · exact (markInRun_begins o s).weaken
  · exact .of_same rfl
  · rename_i h
    refine PortBegins.trans ?_ (latch_begins _ _)
    obtain ⟨rfl, -⟩ := Bool.and_eq_true_iff.1 h
    exact .after rfl rfl (grantController_begins _)
  · refine PortBegins.trans ?_ (latch_begins _ _)
    exact .of_same rfl
  · exact .of_same rfl
  · refine PortBegins.trans ?_ (latch_begins _ _)
    exact .of_same rfl
  · exact .refl _ s
  · exact stageWrite_begins g _ o s
  · exact .of_same (by simp)

theorem reroute_begins (b s : State) : PortBegins false s (reroute b s) := by
  unfold reroute
  (repeat' split)
  · exact route_begins false _ s
  · exact .refl _ s
  · exact .refl _ s

/-! ## The grants (R97, R98) -/

theorem beginRelease_begins {a : Addr} {s : State} (h : mayBegin s a = true) (l : Lanes) (v : Word) (o : Owner) :
    PortBegins true s (beginRelease a l v o s) := .of_grant (p := ⟨a, true, l, v, o⟩) h rfl

theorem grantDrain_begins (s : State) : PortBegins true s (grantDrain s) := by
  unfold grantDrain
  dsimp only
  split
  · exact .refl _ s
  · split
    · exact .of_same (by simp)
    · split
      · exact .of_same (by simp)
      · split
        · exact beginRelease_begins ‹_› _ _ _
        · exact .refl _ s
    · split
      · exact .of_same (by simp)
      · (repeat' split)
        · exact .of_same (by simp)
        · exact .of_same (by simp)
        · rename_i h
          rw [not_or] at h
          exact beginRelease_begins (by simpa using h.2) _ _ _
    · split
      · exact beginRelease_begins ‹_› _ _ _
      · exact .refl _ s

theorem grantFill_begins (s : State) : PortBegins true s (grantFill s) := by
  unfold grantFill
  dsimp only
  (repeat' split)
  · exact beginRelease_begins ‹_› _ _ _
  · exact .of_same (by simp)
  · exact beginRelease_begins ‹_› _ _ _
  · exact .refl _ s
  · exact .refl _ s

theorem grantReissue_begins (s : State) : PortBegins true s (grantReissue s) := by
  unfold grantReissue
  dsimp only
  (repeat' split)
  · exact .of_same (by simp)
  · rename_i h
    rw [not_or] at h
    exact beginRelease_begins (by simpa using h.2) _ _ _
  · exact beginRelease_begins ‹_› _ _ _
  · exact .refl _ s
  · exact .refl _ s

theorem grantSampler_begins (s : State) : PortBegins true s (grantSampler s) := by
  unfold grantSampler
  dsimp only
  (repeat' split)
  · exact .refl _ s
  · exact .of_same (by simp)
  · rename_i h
    rw [Bool.or_eq_true, not_or] at h
    exact .of_grant (p := ⟨_, false, allLanes, 0, _⟩) (by simpa using h.2) rfl

theorem grantPort_begins (s : State) : PortBegins true s (grantPort s) := by
  have release : PortBegins true s (grantRelease s) := by
    unfold grantRelease
    split
    · exact .refl _ s
    · exact grantDrain_begins s
    · exact grantFill_begins s
    · exact grantReissue_begins s
  unfold grantPort
  (repeat' split)
  · exact .refl _ s
  · exact grantController_begins s
  · exact release
  · exact grantSampler_begins s
  · exact .refl _ s

/-! ## The end of an access, and retirement -/

theorem passAnew_begins (s : State) : PortBegins false s (passAnew s) := by
  unfold passAnew
  (repeat' split)
  · exact route_begins false _ s
  · exact .refl _ s
  · exact .refl _ s

theorem ownerEnd_begins (p : PortAccess) (ok : Bool) (d : Word) (s : State) : PortBegins false s (ownerEnd p ok d s) := by
  unfold ownerEnd
  split
  case h_16 => exact passAnew_begins s
  all_goals
    refine .of_same ?_
    (repeat' split) <;> simp

theorem accessEnded_begins (ok : Bool) (d : Word) (s : State) : PortBegins false s (accessEnded ok d s) := by
  unfold accessEnded
  split
  · exact .refl _ s
  · rename_i p _
    refine PortBegins.trans ?_ (followLevel_begins _ _)
    have free : PortBegins false s (s.setMp none) := .of_none rfl
    have ended := free.trans (ownerEnd_begins p ok d _)
    have latched : PortBegins false s (if ok then ownerEnd p ok d (s.setMp none) else latch .memory (ownerEnd p ok d (s.setMp none))) := by
      split
      · exact ended
      · exact ended.trans (latch_begins _ _)
    have gone : ∀ (c : Prop) [Decidable c] (u : State), PortBegins false s u →
        PortBegins false s (if c then goOn p.owner u else u) := fun c _ u h => by
      split
      · exact h.trans (.of_same (by simp))
      · exact h
    exact gone _ _ latched

theorem releaseMark_begins (o : Outstanding) (s : State) : PortBegins false s (releaseMark o s) := by
  unfold releaseMark stalledBoundary
  dsimp only
  (repeat' split)
  · exact ((boundaryMark_begins o s).trans (latch_begins _ _)).trans (followLevel_begins _ _)
  · exact (boundaryMark_begins o s).trans (followLevel_begins _ _)
  · exact .refl _ s

theorem retireWhole_begins (s : State) : PortBegins false s (retireWhole s) := by
  have retired : PortBegins false s (retire s) := .of_same (by simp)
  unfold retireWhole afterRetirement
  (repeat' split)
  · exact retired.trans (releaseMark_begins _ _)
  · exact retired.trans (reroute_begins s _)
  · exact retired

theorem handOver_foldl_begins (l : List WinIdx) (s : State) : PortBegins false s (l.foldl (fun t n => handOver n t) s) := by
  induction l generalizing s with
  | nil => exact .refl _ s
  | cons n l ih => exact (handOver_begins n s).trans (ih _)

theorem thawWindow_begins (n : WinIdx) (s : State) : PortBegins false s (thawWindow n s) := by
  unfold thawWindow
  dsimp only
  (repeat' split)
  · exact .of_same rfl
  · refine PortBegins.trans ?_ (handOver_begins n _)
    exact .of_same (by simp)
  · exact .of_same (by simp)
  · exact .of_same (by simp)

theorem thawAll_begins (l : List WinIdx) (s : State) : PortBegins false s (thawAll l s) := by
  have set : PortBegins false s (setWindows (thawSet l s) s) := .of_same (by simp)
  rw [thawAll_eq]
  refine PortBegins.trans ?_ (reroute_begins s _)
  unfold thawed
  split
  · exact set.trans (.of_same rfl)
  · exact set.trans (handOver_foldl_begins l _)
  · exact set

theorem freezeExpiry_begins (b : Bool) (s : State) : PortBegins false s (freezeExpiry b s) := by
  have stopped : PortBegins false s (s.setFreeze { s.freeze with running := false }) := .of_same rfl
  unfold freezeExpiry
  dsimp only
  split
  · exact (stopped.trans (latch_begins _ _)).trans (thawAll_begins _ _)
  · exact (stopped.trans (thawAll_begins _ _)).trans (latch_begins _ _)

/-! ## Every step -/

theorem Written.begins {s t : State} (h : Written s t) : PortBegins false s t := by
  have acked : ∀ u, PortBegins false s u → PortBegins false s (ackReply u) := fun u h => h.trans (.of_same rfl)
  cases h with
  | latched c u =>
    have h : PortBegins false s (s.setCauses u) := .of_same rfl
    exact acked _ (h.trans (latch_begins c _))
  | followed c u =>
    have h : PortBegins false s (s.setCauses u) := .of_same rfl
    exact acked _ (h.trans (followLevel_begins c _))
  | threshold x =>
    have h : PortBegins false s (s.setPool { s.pool with threshold := x }) := .of_same rfl
    exact acked _ (h.trans (followLevel_begins _ _))
  | _ => exact .of_same rfl

theorem Commanded.begins {s t : State} (h : Commanded s t) : PortBegins false s t := by
  have acked : ∀ u, PortBegins false s u → PortBegins false s (ackReply (reroute s u)) := fun u h =>
    (h.trans (reroute_begins s u)).trans (.of_same rfl)
  cases h with
  | started hm => exact acked _ (.of_same rfl)
  | stopArmed hm ho => exact acked _ (.of_same rfl)
  | stopSafe hm hf hz => exact acked _ (.of_same rfl)
  | resumedFresh hm hf => exact acked _ (.of_same rfl)
  | resumedReissue hm hf => exact .of_same (by simp [beginReissue])
  | enteredSafe hm => exact (enterSafe_begins s).trans (.of_same rfl)
  | frozen n hi he hp hd => exact acked _ (.of_same (by simp))
  | thawed n hi he hp hd => exact acked _ (thawWindow_begins n s)
  | _ => exact .of_same rfl

theorem resetTaken_begins (straps : BitVec 3) (s : State) : PortBegins false s (resetTaken straps s) :=
  .of_owner (f := fun _ => .discarded) rfl

theorem Requested.begins {s t : State} (h : Requested s t) : PortBegins false s t := by
  cases h with
  | reset straps => exact (resetTaken_begins straps s).trans (.of_same rfl)
  | read it d => exact .of_same (by cases it <;> rfl)
  | written t h => exact h.begins
  | commanded t hn h => exact h.begins
  | _ => exact .of_same rfl

theorem Happened.begins {s t : State} (h : Happened s t) : PortBegins true s t := by
  cases h with
  | poweredOn pins =>
    refine .of_none ?_
    change (if s.lines.resetHeld then _ else latchPowerOn _ : State).mp = none
    split <;> rfl
  | resetNegated straps sel =>
    refine .of_same ?_
    change (if s.lines.resetHeld then latchPowerOn _ else s : State).mp = s.mp
    split <;> rfl
  | resetAsserted => exact .of_none rfl
  | resetBroadcast straps hr => exact (resetTaken_begins straps s).weaken
  | fltIn l hr h =>
    refine PortBegins.trans ?_ (followLevel_begins _ _)
    exact .of_same rfl
  | taken a g hc hr =>
    refine PortBegins.trans ?_ (followLevel_begins _ _)
    cases g
    · exact (route_begins false _ s).weaken
    · exact route_begins true _ s
  | granted l hr => exact .after (t := samplePort l s) rfl rfl (grantPort_begins _)
  | ended l ok d hr => exact .after (t := samplePort l s) rfl rfl (accessEnded_begins ok d _).weaken
  | timedOut hr => exact (accessEnded_begins false 0 s).weaken
  | poolStall o n hc ht => exact ((stageWrite_begins false n o s).trans (followLevel_begins _ _)).weaken
  | retired hd => exact (retireWhole_begins s).weaken
  | markReleased o hm => exact (releaseMark_begins o s).weaken
  | endingRouted o hc hw => exact (route_begins false o s).weaken
  | reissueEnded hr hf =>
    refine PortBegins.trans ?_ (reroute_begins s _)
    exact .of_same rfl
  | dropped n hc => exact .of_same (by simp)
  | watchdog hr hw =>
    refine PortBegins.trans ?_ (latch_begins .wdog _)
    exact .of_same rfl
  | freezeExpired b hr => exact (freezeExpiry_begins b s).weaken
  | latched c hr => exact (latch_begins c s).weaken
  | linkClosed hr => exact ((latch_begins .link s).trans (.of_same rfl)).weaken
  | errored r hr =>
    unfold errorFrame
    refine PortBegins.trans ?_ (latch_begins .link _)
    exact .of_same rfl
  | safeBroadcast hr hm =>
    refine PortBegins.trans ?_ (enterSafe_begins _)
    exact .of_same rfl
  | _ => exact .of_same rfl

theorem effect_begins (c : Instr) (s : State) : PortBegins true s (effect c s) := by
  rcases effect_cases c s with e | ⟨-, h⟩ | h
  · exact .of_same (by rw [e])
  · exact h.begins.weaken
  · exact h.begins

/-- What no cut-off window covers is covered by windows that are OPEN or wait to be frozen (Table 7-1). -/
theorem not_cutOff_of_covers {ws : Windows} {a : Addr} (h : cutOffAddr ws a = false) {n : WinIdx} (hn : (ws[n]).covers a = true) :
    (ws[n]).freeze ≠ .frozen ∧ (ws[n]).freeze ≠ .thawPending := by
  have := List.any_eq_false.1 h n (mem_allWin n)
  rw [hn, Bool.true_and] at this
  generalize (ws[n]).freeze = f at this
  cases f <;> simp [Freeze.cutOff] at this ⊢

/-- Settles O53: where no access was in flight the one that is has begun by a grant, which tests the windows for it. -/
theorem noAccessIntoFrozenWindow : Obligations.NoAccessIntoFrozenWindow := by
  intro s t p hm h hp n hn
  rcases step_cases h with rfl | ⟨c, rest, rfl⟩
  · exact absurd (hm.symm.trans hp) (by simp)
  · rcases effect_begins c (s.setPending rest) p hp with ⟨q, hq, -⟩ | ⟨-, hc⟩
    · exact absurd (hm.symm.trans hq) (by simp)
    · exact not_cutOff_of_covers hc hn

end Sys2Proof.Machine
end

section
/-! PROOF. The cause flags, the level causes and the clocks (R117, R118, R121 to R124, R128, R131, R132, R150, R153, R160). -/

namespace Sys2Proof.Machine

/-! ## Latching -/

theorem latch_of_flag {c : Cause} {s : State} (h : s.causes.flag c = true) : latch c s = s := if_pos h

/-- A flag goes from clear to set, and the action is CONTINUE or finds nothing to do (R121, R128). -/
theorem latch_of_no_action {c : Cause} {s : State} (hf : s.causes.flag c = false)
    (ha : s.causes.actionSafe c = false ∨ s.ctl.mode = .idle ∨ (s.ctl.mode = .safe ∧ s.reissue.resuming = false)) :
    latch c s = s.setCauses (s.causes.setFlag c) := by
  unfold latch
  rw [if_neg (by simp [hf])]
  dsimp only
  cases h : s.causes.actionSafe c
  · rfl
  · rcases ha with ha | ha | ⟨ha, hr⟩
    · exact absurd (ha.symm.trans h) Bool.false_ne_true
    · rw [ha]; rfl
    · rw [ha, hr]; rfl

/-- A flag goes from clear to set in ARMED, RUN or ENDING, and the action is SAFE (R128). -/
theorem latch_enters {c : Cause} {s : State} (hf : s.causes.flag c = false) (ha : s.causes.actionSafe c = true)
    (hm : s.ctl.mode = .armed ∨ s.ctl.mode = .run ∨ s.ctl.mode = .ending) :
    latch c s = enterSafe (s.setCauses (s.causes.setFlag c)) := by
  unfold latch
  rw [if_neg (by simp [hf])]
  dsimp only
  rw [if_pos ha]
  rcases hm with hm | hm | hm <;> rw [hm]

/-- A flag goes from clear to set during a reissue, and the action is SAFE (R150). -/
theorem latch_abandons {c : Cause} {s : State} (hf : s.causes.flag c = false) (ha : s.causes.actionSafe c = true)
    (hm : s.ctl.mode = .safe) (hr : s.reissue.resuming = true) :
    latch c s = abandonReissue (s.setCauses (s.causes.setFlag c)) := by
  unfold latch
  rw [if_neg (by simp [hf])]
  dsimp only
  rw [if_pos ha, hm, hr]
  rfl

/-- The fill that begins has its words, its marker or nothing before it (R137, R139). -/
theorem beginFill_eq (s : State) : beginFill s = s.setFill
    { list := fillWindows s.win, offset := 0, active := true,
      phase := if fillWindows s.win ≠ [] then .words else if s.marker.enabled = true then .marker else .due } := by
  unfold beginFill Fill.toMarker
  dsimp only
  by_cases h : fillWindows s.win = []
  · rw [if_pos h, if_neg (not_not.2 h)]
  · rw [if_neg h, if_pos h]

theorem staleWork_eq (o : Owner) : o.staleWork = match o with
    | .fillWord n _ => .fillWord n false
    | .safeMarker _ => .safeMarker false
    | .reissueWord n _ => .reissueWord n false
    | .reissueMarker _ => .reissueMarker false
    | o => o := by
  cases o <;> rfl

theorem not_drives_iff (u : CauseUnit) (c : Cause) : u.drives c = false ↔ u.flag c = false ∨ u.isQuiet c = true := by
  unfold CauseUnit.drives
  rw [Bool.and_eq_false_iff, Bool.not_eq_false']

/-- An element found in a list has nothing before it that would have been found (R131). -/
theorem find?_before {α : Type} [BEq α] [LawfulBEq α] {p : α → Bool} {l : List α} {a b : α} (h : l.find? p = some a)
    (hb : l.idxOf b < l.idxOf a) : p b = false := by
  obtain ⟨-, before, after, rfl, hn⟩ := List.find?_eq_some_iff_append.1 h
  have hlt : (before ++ a :: after).idxOf b < before.length := by
    refine Nat.lt_of_lt_of_le hb ?_
    rw [List.idxOf_append]
    split
    · exact Nat.le_of_lt (List.idxOf_lt_length_iff.2 ‹_›)
    · simp
  have hm : b ∈ before := by
    by_contra hm
    rw [List.idxOf_append, if_neg hm] at hlt
    omega
  simpa using hn b hm

/-- Settles O15: the branches of the latching, with the new fill of an abandoned reissue; and the lead cause is the first of the priority
list that is set and not quiet. -/
theorem causesLatchAndLead : Obligations.CausesLatchAndLead := by
  refine ⟨fun c s => ⟨latch_of_flag, latch_of_no_action, fun hf ha hm => ?enters, fun hf ha hm hr => ?abandons⟩,
    fun s => ⟨fun c hc => ?lead, fun hn d hd => ?none⟩⟩
  case enters =>
    have e := latch_enters hf ha hm
    exact ⟨e, by rw [e, mode_enterSafe]⟩
  case abandons =>
    rw [latch_abandons hf ha hm hr, abandonReissue, beginFill_eq]
    simp only [mapOwner, staleWork_eq]
    rfl
  case lead =>
    have drives : s.causes.drives c = true := List.find?_some hc
    obtain ⟨hf, hq⟩ := Bool.and_eq_true_iff.1 drives
    exact ⟨hf, by simpa using hq, fun d _ hlt => (not_drives_iff _ d).1 (find?_before hc hlt)⟩
  case none => exact (not_drives_iff _ d).1 (by simpa using List.find?_eq_none.1 hn d hd)

/-! ## Level causes and the clocks -/

theorem followLevel_rises {c : LevelCause} {s : State} (ht : (s.causes.level c).time = 0) (hc : condition s c = true) :
    followLevel c s = latch c.cause s := by
  unfold followLevel
  dsimp only
  rw [if_pos ht, if_pos hc]

theorem followLevel_falls {c : LevelCause} {s : State} (ht : (s.causes.level c).time = 0) (hc : condition s c = false) :
    followLevel c s = s.setCauses (s.causes.clearFlag c.cause) := by
  unfold followLevel
  dsimp only
  rw [if_pos ht, if_neg (by simp [hc])]

theorem followLevel_qualifies {c : LevelCause} {s : State} (ht : (s.causes.level c).time ≠ 0) (hc : condition s c = true) :
    followLevel c s = s := by
  unfold followLevel
  dsimp only
  rw [if_neg ht, if_pos hc]

theorem followLevel_restarts {c : LevelCause} {s : State} (ht : (s.causes.level c).time ≠ 0) (hc : condition s c = false) :
    followLevel c s = s.setCauses (s.causes.setLevel c { s.causes.level c with timer := 0 }) := by
  unfold followLevel
  dsimp only
  rw [if_neg ht, if_neg (by simp [hc])]

/-- An entry of the pool is in flight that no record holds any more (R47). -/
def Orphaned (mp : Option PortAccess) : Prop := ∃ p n, mp = some p ∧ (p.owner = .entry n .purged ∨ p.owner = .entry n .dropped)

theorem orphanCount_of_orphaned {mp : Option PortAccess} (h : Orphaned mp) : orphanCount mp = 1 := by
  obtain ⟨⟨a, w, l, v, o⟩, n, rfl, ho | ho⟩ := h
  · cases ho; rfl
  · cases ho; rfl

theorem orphanCount_of_not_orphaned {mp : Option PortAccess} (h : ¬Orphaned mp) : orphanCount mp = 0 := by
  unfold orphanCount
  split
  · exact absurd ⟨_, _, rfl, .inl rfl⟩ h
  · exact absurd ⟨_, _, rfl, .inr rfl⟩ h
  · rfl

theorem qualifying_iff (c : LevelCause) (s : State) : qualifying c s = true ↔
    (s.causes.level c).time ≠ 0 ∧ condition s c = true ∧ s.causes.flag c.cause = false := by
  simp [qualifying, and_assoc]

/-- Where RESET is negated an event has its effect, and where it is asserted none (R4). -/
theorem unlessReset_of_negated {s : State} (h : s.lines.resetHeld = false) (f : State → State) : unlessReset f s = f s := by
  simp [unlessReset, h]

theorem unlessReset_of_asserted {s : State} (h : s.lines.resetHeld = true) (f : State → State) : unlessReset f s = s := by
  simp [unlessReset, h]

/-- Settles O16: the live conditions with the counts behind them, the four ways a level cause follows its condition, and the events of
the lines and of the qualifying time. -/
theorem levelCausesFollow : Obligations.LevelCausesFollow := by
  refine ⟨fun s => ⟨rfl, ?condition, rfl, rfl, rfl, fun h => ?orphan, fun h => ?held⟩,
    fun c s => ⟨followLevel_rises, followLevel_falls, followLevel_qualifies, followLevel_restarts⟩,
    fun level s => ⟨rfl, fun hr => ?asserted, fun hr => ?negated⟩,
    fun c s hr ht hc hf => ⟨fun hl => ?reached, fun hl => ?short⟩⟩
  case condition => simp [condition, stageLowCondition]
  case orphan => rw [queuedCount, orphanCount_of_orphaned h]
  case held => rw [queuedCount, orphanCount_of_not_orphaned h]; rfl
  case asserted => exact congrArg Host.Outcome.next (unlessReset_of_asserted (s := s.setLines { s.lines with fltIn := level }) hr _)
  case negated => exact congrArg Host.Outcome.next (unlessReset_of_negated (s := s.setLines { s.lines with fltIn := level }) hr _)
  case reached =>
    refine congrArg Host.Outcome.next ((unlessReset_of_negated hr _).trans (if_pos ⟨(qualifying_iff c s).2 ⟨ht, hc, hf⟩, hl⟩))
  case short =>
    refine congrArg Host.Outcome.next ((unlessReset_of_negated hr _).trans (if_neg fun h => ?_))
    exact Nat.not_lt.2 h.2 hl

/-- Settles O17: each clock is its one assignment, and none of them moves under RESET; the watchdog expires at its limit alone. -/
theorem clocksAdvance : Obligations.ClocksAdvance := by
  refine ⟨fun s => ⟨fun hr => ⟨?count, ?countDown, fun c k => ?qualify⟩, fun hr => ⟨?count', ?countDown', fun c k => ?qualify'⟩⟩,
    fun s hr => ⟨fun hw hl => ?expires, fun h => ?before⟩⟩
  case count =>
    refine congrArg Host.Outcome.next ((unlessReset_of_negated hr _).trans ?_)
    unfold Timing.advance
    split <;> rfl
  case countDown =>
    refine congrArg Host.Outcome.next ((unlessReset_of_negated hr _).trans ?_)
    split <;> rfl
  case qualify =>
    refine congrArg Host.Outcome.next ((unlessReset_of_negated hr _).trans ?_)
    by_cases h : qualifying c s = true
    · rw [if_pos h, if_pos ((qualifying_iff c s).1 h)]
      rfl
    · rw [if_neg h, if_neg (mt (qualifying_iff c s).2 h)]
      cases c <;> rfl
  case count' => exact congrArg Host.Outcome.next (unlessReset_of_asserted hr _)
  case countDown' => exact congrArg Host.Outcome.next (unlessReset_of_asserted hr _)
  case qualify' => exact congrArg Host.Outcome.next (unlessReset_of_asserted hr _)
  case expires =>
    refine congrArg Host.Outcome.next ((unlessReset_of_negated hr _).trans (if_pos ?_))
    simp [Timing.wdReached, hw, hl]
  case before =>
    refine congrArg Host.Outcome.next ((unlessReset_of_negated hr _).trans (if_neg ?_))
    rcases h with h | h
    · simp [Timing.wdReached, h]
    · simp [Timing.wdReached, Nat.not_le.2 h]

end Sys2Proof.Machine
end

section
/-! PROOF. The entry to SAFE, block by block, with the access that waits and the cause unit (R15, R31, Table 9-1), and the expiry of the
freeze timer, in both orders (R118). -/

namespace Sys2Proof.Machine

/-! ## The blocks at SAFE entry -/

/-- SAFE entry, before the access that waits is routed anew and the stage-low cause follows the free count. -/
def safeBlocks (s : State) : State := beginFill (safeFreeze (walkAbandon (dropQueue (safeControl s))))

theorem enterSafe_eq (s : State) : enterSafe s = relaxStageLow (rerouteSafe (safeBlocks s)) := rfl

theorem safeBlocks_mode (s : State) : (safeBlocks s).ctl.mode = .safe := by simp [safeBlocks, safeControl]

theorem safeBlocks_win (s : State) : (safeBlocks s).win = settlePending s.win := by simp [safeBlocks, safeFreeze]

theorem safeBlocks_cp (s : State) : (safeBlocks s).cp = s.cp := by simp [safeBlocks]

theorem safeBlocks_causes (s : State) : (safeBlocks s).causes = s.causes := by simp [safeBlocks]

theorem safeBlocks_image (s : State) : (safeBlocks s).image = s.image := by simp [safeBlocks]

theorem enterSafe_ctl (s : State) : (enterSafe s).ctl = { s.ctl with mode := .safe, stopPending := false, first := false, torn := false } := by
  simp [enterSafe, safeControl]

theorem enterSafe_timing (s : State) : (enterSafe s).timing = { s.timing with running := false, wdState := .stopped } := by
  simp [enterSafe, safeControl, Timing.halt]

theorem enterSafe_pool (s : State) : (enterSafe s).pool = { s.pool with openStage := [] } := by
  simp [enterSafe, dropQueue]

theorem enterSafe_queue (s : State) : (enterSafe s).release.queue = [] := by
  simp [enterSafe, dropQueue]

theorem enterSafe_sampler (s : State) :
    (enterSafe s).sampler = { state := .stopped, position := none, walkSet := [], done := false } := by
  simp [enterSafe, walkAbandon]

theorem enterSafe_freeze (s : State) :
    (enterSafe s).freeze = { s.freeze with firstFlush := [] }.follow s.win (settlePending s.win) := by
  simp [enterSafe, safeFreeze, setWindows]

/-- The safe fill at SAFE entry is over the OPEN OUTPUT windows with a policy to write (R137). -/
theorem enterSafe_fill (s : State) : (enterSafe s).fill =
    { list := fillWindows (settlePending s.win), offset := 0, active := true,
      phase := if fillWindows (settlePending s.win) ≠ [] then .words else if s.marker.enabled = true then .marker else .due } := by
  simp [enterSafe, beginFill_eq, safeFreeze]

theorem enterSafe_mp (s : State) : (enterSafe s).mp = s.mp.map fun p => { p with owner := match p.owner with
    | .entry n .queued => .entry n .dropped
    | .batchMarker _ => .batchMarker false
    | .walkRead n _ => .walkRead n true
    | o => o } := by
  have hm : (enterSafe s).mp = (s.mp.map fun p => { p with owner := p.owner.dropRecord }).map fun p =>
      { p with owner := p.owner.crossMark } := by
    simp [enterSafe, walkAbandon, dropQueue, mapOwner, crossMark]
  rw [hm]
  cases s.mp with
  | none => rfl
  | some p =>
    rcases p with ⟨a, w, l, v, o⟩
    cases o
    case entry n e => cases e <;> rfl
    all_goals rfl

/-! ## The access that waits -/

/-- The treatments of SAFE (Table 1-3). -/
theorem treatmentOf_safe {s : State} (h : s.ctl.mode = .safe) (c : AccessClass) (a : Access) : treatmentOf s c a =
    match c, a.write with
    | .plain, _ | .mark, _ => .pass
    | .input n, false => .held n
    | .input _, true => if a.enables = 0 then .ack else .discard true
    | .output _, true => if a.enables = 0 then .ack else .discard false
    | .output n, false => if (s.win[n]).freeze.cutOff = true then .mergedNoMem n else .merged n := by
  rcases a with ⟨ad, w, l, v⟩
  cases c with
  | plain => rfl
  | mark => simp [treatmentOf, markTreatment, h]
  | input n => cases w <;> simp [treatmentOf, isEmptyWrite, acksEmpty, inputTreatment, h]
  | output n =>
    cases w
    · cases hc : (s.win[n]).freeze.cutOff <;> simp only [Fin.getElem_fin] at hc <;>
        simp [treatmentOf, isEmptyWrite, outputTreatment, h, hc]
    · simp [treatmentOf, isEmptyWrite, acksEmpty, outputTreatment, h]

theorem rerouteSafe_of_still {s : State} (h : ∀ o, s.cp = .outstanding o → o.wait.movable = false) : rerouteSafe s = s := by
  unfold rerouteSafe
  split
  · rename_i o ho
    simp [h o ho]
  · rfl

/-- The access that waits is given its treatment, and a discarded input write notes itself in the cause unit (R85). -/
theorem rerouteSafe_of_movable {s : State} {o : Outstanding} (h : s.cp = .outstanding o) (hm : o.wait.movable = true) :
    (rerouteSafe s).cp = (carryOut (treatmentOf s o.cls o.access) o s).cp ∧
      (rerouteSafe s).causes = if treatmentOf s o.cls o.access = .discard true ∧ o.effectTaken = false then
        s.causes.setFlag .inputWrite else s.causes := by
  have he : rerouteSafe s = if treatmentOf s o.cls o.access = .discard true ∧ (!o.effectTaken) = true then
      (carryOut (treatmentOf s o.cls o.access) o s).setCauses ((carryOut (treatmentOf s o.cls o.access) o s).causes.setFlag .inputWrite)
      else carryOut (treatmentOf s o.cls o.access) o s := by
    unfold rerouteSafe
    rw [h]
    simp only [hm, if_true]
  rw [he]
  simp only [Bool.not_eq_true']
  split <;> simp

theorem gather_congr {s t : State} (hw : t.win = s.win) (hi : t.image = s.image) (hm : t.ctl.mode = s.ctl.mode)
    (hp : t.pool.openStage = s.pool.openStage) (n : WinIdx) (a : Addr) : gather t n a = gather s n a := by
  unfold gather stagedLanes
  rw [hw, hi, hm, hp]

theorem gather_enterSafe (s : State) (n : WinIdx) (a : Addr) : gather (enterSafe s) n a = gather (safeBlocks s) n a := by
  refine gather_congr ?_ ?_ ?_ ?_ n a
  · rw [enterSafe_win, safeBlocks_win]
  · simp [safeBlocks]
  · rw [mode_enterSafe, safeBlocks_mode]
  · simp [enterSafe, safeBlocks]

/-- An image word is looked up in the record of its window, which settling leaves. -/
theorem imageWord_settlePending (ws : Windows) (k : Kind) (n : WinIdx) (a : Addr) :
    imageWord (settlePending ws) k n a = imageWord ws k n a := imageWord_congr (SameTable.settlePending ws) k n a

theorem heldValue_safeBlocks (s : State) (n : WinIdx) (a : Addr) : heldValue (safeBlocks s) n a = heldValue s n a := by
  unfold heldValue
  rw [safeBlocks_win, safeBlocks_image, imageWord_settlePending]

theorem enterSafe_cp (s : State) : (enterSafe s).cp = (rerouteSafe (safeBlocks s)).cp := by simp [enterSafe_eq]

/-! ## The cause unit -/

theorem CauseUnit.flag_setFlag (u : CauseUnit) (c d : Cause) : (u.setFlag c).flag d = (u.flag d || decide (c = d)) := by
  cases c <;> cases d <;> simp [CauseUnit.flag, CauseUnit.setFlag, Cause.bit, Cause.num]

theorem CauseUnit.flag_clearFlag (u : CauseUnit) (c d : Cause) : (u.clearFlag c).flag d = (u.flag d && !decide (c = d)) := by
  cases c <;> cases d <;> simp [CauseUnit.flag, CauseUnit.clearFlag, Cause.bit, Cause.num]

/-- INPUT WRITE is noted by the routing of an input write with a lane, that has not noted it before (R85, R128). -/
def NotesInputWrite (s : State) : Prop := ∃ o n, s.cp = .outstanding o ∧ o.wait.movable = true ∧ o.cls = .input n ∧
  o.access.write = true ∧ o.access.enables ≠ 0 ∧ o.effectTaken = false

theorem discard_noted_iff {s : State} (h : s.ctl.mode = .safe) (c : AccessClass) (a : Access) :
    treatmentOf s c a = .discard true ↔ ∃ n, c = .input n ∧ a.write = true ∧ a.enables ≠ 0 := by
  rw [treatmentOf_safe h]
  rcases a with ⟨ad, w, l, v⟩
  cases c with
  | plain => simp
  | mark => simp
  | input n =>
    cases w
    · simp
    · by_cases he : l = 0
      · simp [he]
      · simp
  | output n =>
    cases w <;> simp only
    · split <;> simp
    · split <;> simp

/-- The routing anew under SAFE leaves the cause unit, or notes an input write in it (R15, R85). -/
theorem rerouteSafe_causes {s : State} (h : s.ctl.mode = .safe) :
    (NotesInputWrite s → (rerouteSafe s).causes = s.causes.setFlag .inputWrite) ∧
      (¬NotesInputWrite s → (rerouteSafe s).causes = s.causes) := by
  have notes : ∀ {o}, s.cp = .outstanding o → o.wait.movable = true →
      (treatmentOf s o.cls o.access = .discard true ∧ o.effectTaken = false ↔ NotesInputWrite s) := fun {o} ho hm => by
    rw [discard_noted_iff h]
    constructor
    · rintro ⟨⟨n, hn, hw, he⟩, ht⟩
      exact ⟨o, n, ho, hm, hn, hw, he, ht⟩
    · rintro ⟨o', n, ho', -, hn, hw, he, ht⟩
      cases CpState.outstanding.inj (ho.symm.trans ho')
      exact ⟨⟨n, hn, hw, he⟩, ht⟩
  constructor
  · rintro hn
    obtain ⟨o, n, ho, hm, -⟩ := id hn
    rw [(rerouteSafe_of_movable ho hm).2, if_pos ((notes ho hm).2 hn)]
  · intro hn
    by_cases hs : ∃ o, s.cp = .outstanding o ∧ o.wait.movable = true
    · obtain ⟨o, ho, hm⟩ := hs
      rw [(rerouteSafe_of_movable ho hm).2, if_neg (mt (notes ho hm).1 hn)]
    · rw [rerouteSafe_of_still fun o ho => by
        rw [← Bool.not_eq_true]
        exact fun hm => hs ⟨o, ho, hm⟩]

theorem stageLowCondition_congr {s t : State} (hp : t.pool = s.pool) (hr : t.release = s.release) (hm : t.mp = s.mp) :
    stageLowCondition t = stageLowCondition s := by
  unfold stageLowCondition freeCount openCount queuedCount
  rw [hp, hr, hm]

/-- The stage-low cause follows the free count that has risen (R122, R123). -/
theorem relaxStageLow_causes (s : State) :
    (stageLowCondition s = true → (relaxStageLow s).causes = s.causes) ∧
      (stageLowCondition s = false → (relaxStageLow s).causes = { s.causes with
        flags := if s.causes.stageLow.time = 0 then s.causes.flags &&& ~~~Cause.stageLow.bit else s.causes.flags
        stageLow := { s.causes.stageLow with timer := 0 } }) := by
  constructor
  · intro h
    rw [relaxStageLow, if_pos h]
  · intro h
    rw [relaxStageLow, if_neg (by simp [h])]
    dsimp only [CauseUnit.setLevel]
    by_cases ht : s.causes.stageLow.time = 0
    · rw [if_pos ht, if_pos ht]
      rfl
    · rw [if_neg ht, if_neg ht]
      rfl

theorem enterSafe_condition (s : State) : stageLowCondition (enterSafe s) = stageLowCondition (rerouteSafe (safeBlocks s)) :=
  stageLowCondition_congr (by simp [enterSafe_eq]) (by simp [enterSafe_eq]) (by simp [enterSafe_eq])

/-- The cause unit as the routing under SAFE leaves it. -/
def notedCauses (s : State) : CauseUnit := (rerouteSafe (safeBlocks s)).causes

theorem notedCauses_of (s : State) :
    (NotesInputWrite s → notedCauses s = s.causes.setFlag .inputWrite) ∧ (¬NotesInputWrite s → notedCauses s = s.causes) := by
  have h := rerouteSafe_causes (safeBlocks_mode s)
  have hn : NotesInputWrite (safeBlocks s) ↔ NotesInputWrite s := by simp only [NotesInputWrite, safeBlocks_cp]
  rw [hn, safeBlocks_causes] at h
  exact h

theorem notedCauses_rest (s : State) : notedCauses s = { s.causes with flags := (notedCauses s).flags } := by
  by_cases h : NotesInputWrite s
  · rw [(notedCauses_of s).1 h]; rfl
  · rw [(notedCauses_of s).2 h]

theorem notedCauses_flag (s : State) (c : Cause) :
    (notedCauses s).flag c = true ↔ s.causes.flag c = true ∨ (c = .inputWrite ∧ NotesInputWrite s) := by
  by_cases h : NotesInputWrite s
  · rw [(notedCauses_of s).1 h, CauseUnit.flag_setFlag]
    simp only [h, and_true, Bool.or_eq_true, decide_eq_true_eq, eq_comm (a := Cause.inputWrite)]
  · rw [(notedCauses_of s).2 h]
    simp [h]

theorem enterSafe_causes (s : State) :
    (stageLowCondition (enterSafe s) = true → (enterSafe s).causes = notedCauses s) ∧
      (stageLowCondition (enterSafe s) = false → (enterSafe s).causes = { notedCauses s with
        flags := if s.causes.stageLow.time = 0 then (notedCauses s).flags &&& ~~~Cause.stageLow.bit else (notedCauses s).flags
        stageLow := { s.causes.stageLow with timer := 0 } }) := by
  have h := relaxStageLow_causes (rerouteSafe (safeBlocks s))
  have hs : (notedCauses s).stageLow = s.causes.stageLow := by rw [notedCauses_rest]
  rw [← enterSafe_condition, ← enterSafe_eq] at h
  change (_ → (enterSafe s).causes = notedCauses s) ∧ (_ → (enterSafe s).causes = { notedCauses s with
        flags := if (notedCauses s).stageLow.time = 0 then (notedCauses s).flags &&& ~~~Cause.stageLow.bit else (notedCauses s).flags
        stageLow := { (notedCauses s).stageLow with timer := 0 } }) at h
  rw [hs] at h
  exact h

/-- The flags after SAFE entry: all but STAGE LOW are those of the routing (R122, R128). -/
theorem enterSafe_flag {c : Cause} (hc : c ≠ .stageLow) (s : State) : (enterSafe s).causes.flag c = (notedCauses s).flag c := by
  cases h : stageLowCondition (enterSafe s)
  · have e : (enterSafe s).causes.flag c = if s.causes.stageLow.time = 0 then ((notedCauses s).clearFlag .stageLow).flag c
        else (notedCauses s).flag c := by
      rw [(enterSafe_causes s).2 h]
      split <;> rfl
    rw [e, CauseUnit.flag_clearFlag]
    simp [Ne.symm hc]
  · rw [(enterSafe_causes s).1 h]

theorem enterSafe_flag_other {c : Cause} (hi : c ≠ .inputWrite) (hc : c ≠ .stageLow) (s : State) :
    (enterSafe s).causes.flag c = s.causes.flag c := by
  rw [enterSafe_flag hc, Bool.eq_iff_iff, notedCauses_flag]
  simp [hi]

theorem notedCauses_flag_stageLow (s : State) : (notedCauses s).flag .stageLow = s.causes.flag .stageLow := by
  rw [Bool.eq_iff_iff, notedCauses_flag]
  simp

theorem enterSafe_stageLow_falls {s : State} (h : stageLowCondition (enterSafe s) = false) :
    (enterSafe s).causes.stageLow = { s.causes.stageLow with timer := 0 } ∧
      (enterSafe s).causes.flag .stageLow = (s.causes.flag .stageLow && decide (s.causes.stageLow.time ≠ 0)) := by
  have e : (enterSafe s).causes.flag .stageLow = if s.causes.stageLow.time = 0 then ((notedCauses s).clearFlag .stageLow).flag .stageLow
      else (notedCauses s).flag .stageLow := by
    rw [(enterSafe_causes s).2 h]
    split <;> rfl
  refine ⟨by rw [(enterSafe_causes s).2 h], ?_⟩
  rw [e, CauseUnit.flag_clearFlag, notedCauses_flag_stageLow]
  by_cases ht : s.causes.stageLow.time = 0
  · rw [if_pos ht, decide_eq_false (not_not.2 ht)]
    simp
  · rw [if_neg ht, decide_eq_true ht, Bool.and_true]

theorem enterSafe_causes_rest (s : State) : (enterSafe s).causes =
    { s.causes with flags := (enterSafe s).causes.flags, stageLow := (enterSafe s).causes.stageLow } := by
  have h := notedCauses_rest s
  cases hc : stageLowCondition (enterSafe s)
  · rw [(enterSafe_causes s).2 hc, h]
  · rw [(enterSafe_causes s).1 hc, h]

/-! ## The commands and the broadcast -/

theorem exec_safe_of_attending {s : State} (h : Attending s) (argument : Word) :
    exec (.safe .unicast argument) s = .next (takeSafe s) :=
  congrArg Host.Outcome.next (guarded_of_attending h takeSafe)

theorem exec_safe_broadcast {s : State} (hr : s.lines.resetHeld = false) (hf : s.mg.frame ≠ .abandoned) (argument : Word) :
    exec (.safe .broadcast argument) s = .next (safeBroadcast s) :=
  congrArg Host.Outcome.next (if_pos (by simp [receiving, hr, hf]))

/-- A window word is read of the image by the record, and a waiting access of the window is routed by its treatment in SAFE. -/
theorem enterSafe_cp_of_movable {s : State} {o : Outstanding} (ho : s.cp = .outstanding o) (hm : o.wait.movable = true) :
    (enterSafe s).cp = (carryOut (treatmentOf (safeBlocks s) o.cls o.access) o (safeBlocks s)).cp := by
  rw [enterSafe_cp]
  exact (rerouteSafe_of_movable ((safeBlocks_cp s).trans ho) hm).1

theorem settled_cutOff (f : Freeze) : f.settled.cutOff = true ↔ f.settled = .frozen := by
  cases f <;> simp [Freeze.settled, Freeze.cutOff]

theorem mergedRead_cp (n : WinIdx) (o : Outstanding) (s : State) : (mergedRead n o s).cp =
    if (gather s n o.access.addr).2 = 0 then .ended true false (gather s n o.access.addr).1
    else .outstanding { o with wait := .service .merged } := by
  unfold mergedRead
  dsimp only
  split <;> rfl

/-- Settles O29: SAFE by its mode rules, and the blocks of Table 9-1 one by one, with the access that waits and the cause unit. -/
theorem safeResult : Obligations.SafeResult := by
  refine ⟨fun argument s => ⟨fun ha hm => ?idle, fun ha hm => ?safe, fun ha hm => ?enters, fun hr hf => ⟨fun hm => ?quiet, fun hm => ?broadcast⟩⟩,
    fun s => ⟨enterSafe_ctl s, enterSafe_timing s, enterSafe_pool s, enterSafe_queue s, enterSafe_sampler s, fun n => ?win, ?flush,
      ?timer, ?active, ?offset, ?phase, ?list, ?settings, ?background, ?image, ?reissue, ?mg, enterSafe_mp s, fun h => ?still,
      fun o ho hm => ?waiting, ?inputWrite, fun c hi hl => enterSafe_flag_other hi hl s, fun h => ?holds, enterSafe_stageLow_falls,
      enterSafe_causes_rest s⟩⟩
  case idle => rw [exec_safe_of_attending ha, takeSafe, hm]; rfl
  case safe => rw [exec_safe_of_attending ha, takeSafe, hm]; rfl
  case enters =>
    rw [exec_safe_of_attending ha, takeSafe]
    rcases hm with hm | hm | hm <;> rw [hm]
  case quiet =>
    rw [exec_safe_broadcast hr hf, safeBroadcast]
    rcases hm with hm | hm <;> rw [hm]
  case broadcast =>
    rw [exec_safe_broadcast hr hf, safeBroadcast]
    rcases hm with hm | hm | hm <;> rw [hm]
  case win =>
    rw [enterSafe_win, settlePending_get]
    cases (s.win[n]).freeze <;> rfl
  case flush => rw [enterSafe_freeze, FreezeControl.follow_firstFlush]
  case timer =>
    rw [enterSafe_freeze, enterSafe_win]
    exact .of_follow { s.freeze with firstFlush := [] } _ _
  case active => rw [enterSafe_fill]
  case offset => rw [enterSafe_fill]
  case phase => rw [enterSafe_fill]
  case list => rw [enterSafe_fill, enterSafe_win]; rfl
  case settings => simp [SettingsKept]
  case background => simp
  case image => simp
  case reissue => simp
  case mg => simp
  case still =>
    rw [enterSafe_cp, rerouteSafe_of_still, safeBlocks_cp]
    rw [safeBlocks_cp]
    exact h
  case holds =>
    rw [(enterSafe_causes s).1 h]
    exact ⟨by rw [notedCauses_rest], notedCauses_flag_stageLow s⟩
  case inputWrite =>
    rw [enterSafe_flag (by simp), notedCauses_flag]
    simp only [true_and, NotesInputWrite]
  case waiting =>
    have hcp := enterSafe_cp_of_movable ho hm
    rw [treatmentOf_safe (safeBlocks_mode s)] at hcp
    rcases o with ⟨⟨a, w, l, v⟩, c, wt, e⟩
    cases c with
    | plain => exact hcp
    | mark => exact hcp
    | input n =>
      cases w
      · exact hcp.trans (congrArg (CpState.ended true false) (heldValue_safeBlocks s n a))
      · rw [hcp]
        dsimp only
        split <;> rfl
    | output n =>
      cases w
      · dsimp only at hcp ⊢
        rw [hcp, enterSafe_win, settlePending_freeze, gather_enterSafe, safeBlocks_win, settlePending_freeze]
        by_cases hc : (s.win[n]).freeze.settled = .frozen
        · rw [if_pos ((settled_cutOff _).2 hc), if_pos (.inl hc)]
          rfl
        · rw [if_neg (mt (settled_cutOff _).1 hc)]
          exact (mergedRead_cp n _ _).trans (if_congr (or_iff_right hc).symm rfl rfl)
      · rw [hcp]
        dsimp only
        split <;> rfl

end Sys2Proof.Machine
end

section
/-! PROOF. The expiry of the freeze timer, in both orders (R114, R118, R128, R137, R140, R150). -/

namespace Sys2Proof.Machine

/-! ## THAW before the routing anew -/

theorem handOver_of_not_filled {n : WinIdx} {s : State} (h : ¬isFilled s.win[n] = true) : handOver n s = s := if_neg h

theorem handOver_setCauses (n : WinIdx) (u : CauseUnit) (s : State) : handOver n (s.setCauses u) = (handOver n s).setCauses u := by
  by_cases h : isFilled s.win[n] = true
  · by_cases hh : s.fill.list.head? = some n
    · simp only [handOver, State.setCauses_win, State.setCauses_fill, h, hh, if_true]
      rfl
    · simp only [handOver, State.setCauses_win, State.setCauses_fill, h, hh, if_true, if_false]
      rfl
  · rw [handOver_of_not_filled h, handOver_of_not_filled (s := s.setCauses u) h]

theorem handOver_setCp (n : WinIdx) (c : CpState) (s : State) : handOver n (s.setCp c) = (handOver n s).setCp c := by
  by_cases h : isFilled s.win[n] = true
  · by_cases hh : s.fill.list.head? = some n
    · simp only [handOver, State.setCp_win, State.setCp_fill, h, hh, if_true]
      rfl
    · simp only [handOver, State.setCp_win, State.setCp_fill, h, hh, if_true, if_false]
      rfl
  · rw [handOver_of_not_filled h, handOver_of_not_filled (s := s.setCp c) h]

theorem thawed_setCauses (l : List WinIdx) (u : CauseUnit) (s : State) : thawed l (s.setCauses u) = (thawed l s).setCauses u := by
  have handed : ∀ t : State, l.foldl (fun t n => handOver n t) (t.setCauses u) = (l.foldl (fun t n => handOver n t) t).setCauses u := by
    induction l with
    | nil => exact fun t => rfl
    | cons n l ih => exact fun t => by rw [List.foldl_cons, List.foldl_cons, handOver_setCauses, ih]
  simp only [thawed, State.setCauses_ctl]
  split
  · rfl
  · exact handed (setWindows (thawSet l s) s)
  · rfl

theorem thawed_setCp (l : List WinIdx) (c : CpState) (s : State) : thawed l (s.setCp c) = (thawed l s).setCp c := by
  have handed : ∀ t : State, l.foldl (fun t n => handOver n t) (t.setCp c) = (l.foldl (fun t n => handOver n t) t).setCp c := by
    induction l with
    | nil => exact fun t => rfl
    | cons n l ih => exact fun t => by rw [List.foldl_cons, List.foldl_cons, handOver_setCp, ih]
  simp only [thawed, State.setCp_ctl]
  split
  · rfl
  · exact handed (setWindows (thawSet l s) s)
  · rfl

@[simp] theorem thawed_frame (l : List WinIdx) (s : State) : (thawed l s).cp = s.cp ∧ (thawed l s).ctl = s.ctl ∧
    (thawed l s).causes = s.causes ∧ (thawed l s).reissue = s.reissue ∧ (thawed l s).mg = s.mg ∧ (thawed l s).marker = s.marker := by
  unfold thawed
  split <;> simp

/-- What the access waits for is not what could be routed anew (R15). -/
def CpStill (c : CpState) : Prop := ∀ o, c = .outstanding o → o.wait.movable = false

theorem reroute_of_still {b s : State} (h : CpStill s.cp) : reroute b s = s := by
  unfold reroute
  split
  · rename_i o ho
    rw [h o ho, Bool.false_and]
    rfl
  · rfl

theorem thawAll_of_still {l : List WinIdx} {s : State} (h : CpStill s.cp) : thawAll l s = thawed l s := by
  rw [thawAll_eq]
  refine reroute_of_still ?_
  rw [(thawed_frame l s).1]
  exact h

/-- What THAW gives does not look at the Controller Port. -/
theorem thawed_gives {s : State} {l : List WinIdx} (hm : s.ctl.mode = .armed ∨ s.ctl.mode = .run ∨ s.ctl.mode = .safe)
    (hl : l.Pairwise (· < ·)) (hf : ∀ n ∈ l, (s.win[n]).freeze = .frozen) : ThawGives l s (thawed l s) := by
  obtain ⟨t, ht, he⟩ := thawAll_gives (s := s.setCp .idle) hm hl hf
  have hcp : CpStill (s.setCp .idle).cp := fun o ho => by simp at ho
  obtain ⟨h1, h2, h3, h4, h5, h6⟩ := ht
  have htc : t.cp = .idle := by rw [h6]; rfl
  have hstill : CpStill t.cp := fun o ho => by simp [htc] at ho
  rw [thawAll_of_still hcp, reroute_of_still hstill, thawed_setCp] at he
  have hs : thawed l s = t.setCp s.cp := by
    rw [← he]
    have := (thawed_frame l s).1
    rw [← this]
    rfl
  rw [hs]
  refine ⟨h1, h2, h3, h4, h5, ?_⟩
  conv_lhs => rw [h6]
  rfl

/-! ## The expiry -/

theorem mem_frozenNow (ws : Windows) (n : WinIdx) : n ∈ frozenNow ws ↔ (ws[n]).freeze = .frozen := by
  simp [frozenNow, mem_allWin]

theorem frozenNow_sorted (ws : Windows) : (frozenNow ws).Pairwise (· < ·) := allWin_sorted.filter _

/-- The freeze timer at its expiry: stopped, the remaining count being 0 (R118). -/
def timerStopped (s : State) : State := s.setFreeze { s.freeze with running := false }

theorem exec_freezeTimerExpiry {s : State} (hr : s.lines.resetHeld = false) (hf : s.freeze.running = true) (hz : s.freeze.remaining = 0)
    (first : Bool) : exec (.freezeTimerExpiry first) s = .next (freezeExpiry first s) :=
  congrArg Host.Outcome.next ((unlessReset_of_negated hr _).trans (if_pos ⟨hf, hz⟩))

theorem freezeExpiry_first (s : State) :
    freezeExpiry true s = thawAll (frozenNow s.win) (latch .freezeExpired (timerStopped s)) := rfl

theorem freezeExpiry_last (s : State) :
    freezeExpiry false s = latch .freezeExpired (thawAll (frozenNow s.win) (timerStopped s)) := rfl

theorem CauseUnit.setFlag_of_flag {u : CauseUnit} {c : Cause} (h : u.flag c = true) : u.setFlag c = u := by
  have : u.flags ||| c.bit = u.flags := by
    ext i hi
    simp only [BitVec.getElem_or, Bool.or_eq_left_iff_imp]
    intro hb
    have hn : i = c.num := by
      cases c <;> simp only [Cause.bit, Cause.num] at hb ⊢ <;> interval_cases i <;> simp_all
    subst hn
    rw [CauseUnit.flag, BitVec.getLsbD_eq_getElem hi] at h
    exact h
  rw [CauseUnit.setFlag, this]

/-- A latching that takes no action sets the flag and nothing else (R121, R128). -/
theorem latch_of_idle {c : Cause} {s : State}
    (h : s.causes.actionSafe c = false ∨ s.causes.flag c = true ∨ (s.ctl.mode = .safe ∧ s.reissue.resuming = false)) :
    latch c s = s.setCauses (s.causes.setFlag c) := by
  cases hf : s.causes.flag c
  · refine latch_of_no_action hf ?_
    rcases h with h | h | h
    · exact .inl h
    · exact absurd (hf.symm.trans h) Bool.false_ne_true
    · exact .inr (.inr h)
  · rw [latch_of_flag hf, CauseUnit.setFlag_of_flag hf]
    rfl

/-- The windows of a list that the fill has something to write to (R137, R140). -/
def filledOf (l : List WinIdx) (s : State) : List WinIdx := l.filter fun n => isFilled s.win[n]

theorem fillWindows_eq (ws : Windows) :
    fillWindows ws = allWin.filter fun n => isFilled ws[n] && decide ((ws[n]).freeze = .opened) := rfl

section
variable {s : State} {l : List WinIdx}

/-- THAW in SAFE, during a fill that stands at the first word of its list (R140). -/
theorem thawed_fill (hm : s.ctl.mode = .safe) (hl : l.Pairwise (· < ·)) (hf : ∀ n ∈ l, (s.win[n]).freeze = .frozen)
    (ha : s.fill.active = true) (ho : s.fill.offset = 0) : (thawed l s).fill =
      { s.fill with list := s.fill.list.filter (fun m => decide (m ∉ filledOf l s)) ++ filledOf l s, offset := 0 } := by
  obtain ⟨-, -, -, handed, others, -⟩ := thawed_gives (.inr (.inr hm)) hl hf
  by_cases hn : filledOf l s = []
  · have hl' : s.fill.list.filter (fun m => decide (m ∉ filledOf l s)) = s.fill.list := by
      rw [List.filter_eq_self]
      simp [hn]
    rw [(others (.inr hn)).1, hl', hn, List.append_nil, ← ho]
  · have := (handed hm hn).1
    rw [if_pos ha] at this
    rw [this, ho, ite_self]
    rfl

/-- THAW opens FROZEN windows outside RUN, and makes them THAW-PENDING in RUN (Table 7-2). -/
theorem thawed_win (hm : s.ctl.mode = .armed ∨ s.ctl.mode = .run ∨ s.ctl.mode = .safe) (hl : l.Pairwise (· < ·))
    (hf : ∀ n ∈ l, (s.win[n]).freeze = .frozen) (n : WinIdx) : (thawed l s).win[n] =
      if n ∈ l then { s.win[n] with freeze := if s.ctl.mode = .run then .thawPending else .opened } else s.win[n] :=
  (thawed_gives hm hl hf).1 n

end

/-- The freeze state of a window after an expiry that has brought about SAFE, from the mode and the freeze state before it. -/
def expiredFreeze (m : Mode) (f : Freeze) : Freeze :=
  match m, f with
  | _, .frozen => .opened
  | .safe, f => f
  | _, .freezePending => .frozen
  | _, .thawPending | _, .opened => .opened

/-- What the latching brings about when its action is taken: SAFE entry, or the abandoning of a reissue (R128). -/
def safeAction (s : State) : State := if s.ctl.mode = .safe then abandonReissue s else enterSafe s

theorem latch_acts {s : State} (ha : s.causes.actionSafe .freezeExpired = true) (hf : s.causes.flag .freezeExpired = false)
    (hm : s.ctl.mode = .armed ∨ s.ctl.mode = .run ∨ (s.ctl.mode = .safe ∧ s.reissue.resuming = true)) :
    latch .freezeExpired s = safeAction (s.setCauses (s.causes.setFlag .freezeExpired)) := by
  rcases hm with hm | hm | ⟨hm, hr⟩
  · exact (latch_enters hf ha (.inl hm)).trans (if_neg (by simp [hm])).symm
  · exact (latch_enters hf ha (.inr (.inl hm))).trans (if_neg (by simp [hm])).symm
  · exact (latch_abandons hf ha hm hr).trans (if_pos hm).symm

theorem safeAction_mode (s : State) : (safeAction s).ctl.mode = .safe := by
  unfold safeAction
  split
  · simpa using ‹s.ctl.mode = .safe›
  · exact mode_enterSafe s

theorem safeAction_cp {s : State} (h : CpStill s.cp) : (safeAction s).cp = s.cp := by
  unfold safeAction
  split
  · simp
  · have hb : CpStill (safeBlocks s).cp := by rw [safeBlocks_cp]; exact h
    rw [enterSafe_cp, rerouteSafe_of_still hb, safeBlocks_cp]

theorem safeAction_flag (s : State) : (safeAction s).causes.flag .freezeExpired = s.causes.flag .freezeExpired := by
  unfold safeAction
  split
  · simp
  · exact enterSafe_flag_other (by simp) (by simp) s

/-- The freeze states after the action: the pending ones settle at SAFE entry (R114). -/
def actionFreeze (m : Mode) (f : Freeze) : Freeze := if m = .safe then f else f.settled

theorem safeAction_win (s : State) (n : WinIdx) :
    (safeAction s).win[n] = { s.win[n] with freeze := actionFreeze s.ctl.mode (s.win[n]).freeze } := by
  by_cases hm : s.ctl.mode = .safe
  · rw [show safeAction s = abandonReissue s from if_pos hm, actionFreeze, if_pos hm]
    simp
  · rw [show safeAction s = enterSafe s from if_neg hm, actionFreeze, if_neg hm, enterSafe_win, settlePending_get]
    cases (s.win[n]).freeze <;> rfl

theorem safeAction_fill (s : State) : (safeAction s).fill =
    { list := fillWindows (safeAction s).win, offset := 0, active := true,
      phase := if fillWindows (safeAction s).win ≠ [] then .words else if s.marker.enabled = true then .marker else .due } := by
  unfold safeAction
  split
  · rw [abandonReissue, beginFill_eq]
    rfl
  · rw [enterSafe_fill, enterSafe_win]

section
variable {s : State}

/-- The mode in which an expiry with the action SAFE has something to do. -/
def ExpiryActs (s : State) : Prop := s.ctl.mode = .armed ∨ s.ctl.mode = .run ∨ (s.ctl.mode = .safe ∧ s.reissue.resuming = true)

/-- The bridge when FREEZE EXPIRED has latched and its action is taken, before the thaws. -/
def firstAction (s : State) : State := safeAction ((timerStopped s).setCauses (s.causes.setFlag .freezeExpired))

/-- The bridge when the thaws have been made and FREEZE EXPIRED has then latched and its action is taken. -/
def lastAction (s : State) : State :=
  safeAction ((thawed (frozenNow s.win) (timerStopped s)).setCauses (s.causes.setFlag .freezeExpired))

theorem freezeExpiry_first_acts (ha : s.causes.actionSafe .freezeExpired = true) (hf : s.causes.flag .freezeExpired = false)
    (hm : ExpiryActs s) (hc : CpStill s.cp) : freezeExpiry true s = thawed (frozenNow s.win) (firstAction s) := by
  rw [freezeExpiry_first, latch_acts (s := timerStopped s) ha hf hm]
  refine thawAll_of_still ?_
  have hs : CpStill ((timerStopped s).setCauses ((timerStopped s).causes.setFlag .freezeExpired)).cp := hc
  rw [safeAction_cp hs]
  exact hc

theorem freezeExpiry_last_acts (ha : s.causes.actionSafe .freezeExpired = true) (hf : s.causes.flag .freezeExpired = false)
    (hm : ExpiryActs s) (hc : CpStill s.cp) : freezeExpiry false s = lastAction s := by
  have hs : CpStill (timerStopped s).cp := hc
  obtain ⟨-, hctl, hcauses, hreissue, -⟩ := thawed_frame (frozenNow s.win) (timerStopped s)
  rw [freezeExpiry_last, thawAll_of_still hs, latch_acts, hcauses]
  · rfl
  · rw [hcauses]; exact ha
  · rw [hcauses]; exact hf
  · rw [hctl, hreissue]; exact hm

theorem ExpiryActs.thaws (hm : ExpiryActs s) : s.ctl.mode = .armed ∨ s.ctl.mode = .run ∨ s.ctl.mode = .safe :=
  hm.imp_right (Or.imp_right And.left)

theorem firstAction_mode (s : State) : (firstAction s).ctl.mode = .safe := safeAction_mode _

theorem firstAction_win (s : State) (n : WinIdx) :
    (firstAction s).win[n] = { s.win[n] with freeze := actionFreeze s.ctl.mode (s.win[n]).freeze } := safeAction_win _ n

/-- The windows that were FROZEN at the expiry are so still when the action has been taken (R114, R118). -/
theorem firstAction_frozen {n : WinIdx} (h : n ∈ frozenNow s.win) : ((firstAction s).win[n]).freeze = .frozen := by
  rw [firstAction_win, (mem_frozenNow _ n).1 h]
  unfold actionFreeze
  split <;> rfl

/-- The windows after the expiry, in either order. -/
theorem firstAction_thawed_win (hm : ExpiryActs s) (n : WinIdx) : (thawed (frozenNow s.win) (firstAction s)).win[n] =
    { s.win[n] with freeze := expiredFreeze s.ctl.mode (s.win[n]).freeze } := by
  rw [thawed_win (.inr (.inr (firstAction_mode s))) (frozenNow_sorted _) (fun _ => firstAction_frozen), firstAction_win]
  simp only [mem_frozenNow, firstAction_mode]
  rcases hm with hm | hm | ⟨hm, -⟩ <;> rw [hm] <;> cases hf : (s.win[n]).freeze <;> rfl

theorem thawed_timerStopped_win (hm : ExpiryActs s) (n : WinIdx) : (thawed (frozenNow s.win) (timerStopped s)).win[n] =
    if (s.win[n]).freeze = .frozen then { s.win[n] with freeze := if s.ctl.mode = .run then .thawPending else .opened }
    else s.win[n] :=
  (thawed_win (s := timerStopped s) hm.thaws (frozenNow_sorted _) (fun n hn => (mem_frozenNow _ n).1 hn) n).trans
    (if_congr (mem_frozenNow _ n) rfl rfl)

theorem lastAction_win (hm : ExpiryActs s) (n : WinIdx) : (lastAction s).win[n] =
    { s.win[n] with freeze := expiredFreeze s.ctl.mode (s.win[n]).freeze } := by
  refine (safeAction_win _ n).trans ?_
  change ({ (thawed (frozenNow s.win) (timerStopped s)).win[n] with
    freeze := actionFreeze (thawed (frozenNow s.win) (timerStopped s)).ctl.mode
      ((thawed (frozenNow s.win) (timerStopped s)).win[n]).freeze } : Window) = _
  rw [(thawed_frame _ _).2.1, show (timerStopped s).ctl = s.ctl from rfl, thawed_timerStopped_win hm]
  by_cases hf : (s.win[n]).freeze = .frozen
  · rw [if_pos hf, hf]
    rcases hm with hm | hm | ⟨hm, -⟩ <;> rw [hm] <;> rfl
  · rw [if_neg hf]
    rcases hm with hm | hm | ⟨hm, -⟩ <;> rw [hm] <;> cases h : (s.win[n]).freeze <;> first | rfl | exact absurd h hf

/-- The OPEN OUTPUT windows with a policy to write, by the freeze states they come to have (R137). -/
def filledBy (s : State) (ws : Windows) : List WinIdx := allWin.filter fun n => (s.win[n]).defined &&
  decide ((s.win[n]).record.kind = .output) && decide ((s.win[n]).record.policy ≠ .hold) && decide ((ws[n]).freeze = .opened)

theorem fillWindows_filledBy {ws : Windows} (h : SameTable s.win ws) : fillWindows ws = filledBy s ws :=
  List.filter_congr fun n _ => by
    unfold Window.isOutput
    rw [(h n).1, (h n).2]

end

section
variable {s : State}

theorem filledBy_expired {ws : Windows}
    (h : ∀ n : WinIdx, ws[n] = { s.win[n] with freeze := expiredFreeze s.ctl.mode (s.win[n]).freeze }) :
    filledBy s ws = allWin.filter fun n => isFilled s.win[n] && decide (expiredFreeze s.ctl.mode (s.win[n]).freeze = .opened) :=
  List.filter_congr fun n _ => by rw [h n]; rfl

/-- The fill that begins before the thaws is over the windows that were not FROZEN (R137). -/
theorem firstAction_list (hm : ExpiryActs s) {ws : Windows}
    (h : ∀ n : WinIdx, ws[n] = { s.win[n] with freeze := expiredFreeze s.ctl.mode (s.win[n]).freeze }) :
    fillWindows (firstAction s).win = (filledBy s ws).filter fun n => decide ((s.win[n]).freeze ≠ .frozen) := by
  have freeze : ∀ f, decide (actionFreeze s.ctl.mode f = .opened) =
      (decide (f ≠ .frozen) && decide (expiredFreeze s.ctl.mode f = .opened)) := fun f => by
    rcases hm with hm | hm | ⟨hm, -⟩ <;> rw [hm] <;> cases f <;> rfl
  rw [filledBy_expired h, List.filter_filter, fillWindows_eq]
  refine List.filter_congr fun n _ => ?_
  rw [firstAction_win, freeze, Bool.and_left_comm]
  rfl

/-- The windows handed over are those that were FROZEN and have something to be written to them (R140). -/
theorem filledOf_frozen {ws : Windows}
    (h : ∀ n : WinIdx, ws[n] = { s.win[n] with freeze := expiredFreeze s.ctl.mode (s.win[n]).freeze }) :
    filledOf (frozenNow s.win) (firstAction s) = (filledBy s ws).filter fun n => decide ((s.win[n]).freeze = .frozen) := by
  have freeze : ∀ f, decide (f = .frozen) = (decide (f = .frozen) && decide (expiredFreeze s.ctl.mode f = .opened)) := fun f => by
    cases s.ctl.mode <;> cases f <;> rfl
  have frozen : ∀ n : WinIdx, isFilled (firstAction s).win[n] = isFilled s.win[n] := fun n => by rw [firstAction_win]; rfl
  rw [filledBy_expired h, filledOf, frozenNow, List.filter_filter, List.filter_filter]
  refine List.filter_congr fun n _ => ?_
  rw [frozen, Bool.and_left_comm, ← freeze, Bool.and_comm]

end

/-- Where the latching takes no action, the flag and the thaws are all, in either order. -/
theorem freezeExpiry_idle {s : State} (hi : s.causes.actionSafe .freezeExpired = false ∨ s.causes.flag .freezeExpired = true ∨
      (s.ctl.mode = .safe ∧ s.reissue.resuming = false)) :
    freezeExpiry true s = reroute ((timerStopped s).setCauses (s.causes.setFlag .freezeExpired))
      ((thawed (frozenNow s.win) (timerStopped s)).setCauses (s.causes.setFlag .freezeExpired)) ∧
      (CpStill s.cp → ∀ first, freezeExpiry first s =
        (thawed (frozenNow s.win) (timerStopped s)).setCauses (s.causes.setFlag .freezeExpired)) := by
  have latched := latch_of_idle (s := timerStopped s) hi
  have first : freezeExpiry true s = reroute ((timerStopped s).setCauses (s.causes.setFlag .freezeExpired))
      ((thawed (frozenNow s.win) (timerStopped s)).setCauses (s.causes.setFlag .freezeExpired)) := by
    rw [freezeExpiry_first, latched, thawAll_eq, thawed_setCauses]
    rfl
  obtain ⟨hcp, hctl, hcauses, hreissue, -⟩ := thawed_frame (frozenNow s.win) (timerStopped s)
  refine ⟨first, fun hc b => ?_⟩
  cases b
  · rw [freezeExpiry_last, thawAll_of_still (s := timerStopped s) hc, latch_of_idle, hcauses]
    · rfl
    · rw [hcauses, hctl, hreissue]
      exact hi
  · rw [first, reroute_of_still]
    rw [State.setCauses_cp, hcp]
    exact hc

theorem firstAction_fill (s : State) : (firstAction s).fill =
    { list := fillWindows (firstAction s).win, offset := 0, active := true,
      phase := if fillWindows (firstAction s).win ≠ [] then .words else if s.marker.enabled = true then .marker else .due } :=
  safeAction_fill _

/-- The fill after an expiry whose action is taken before the thaws: the windows thawed are at its tail (R140). -/
theorem firstAction_thawed_fill {s : State} (hm : ExpiryActs s) {ws : Windows}
    (h : ∀ n : WinIdx, ws[n] = { s.win[n] with freeze := expiredFreeze s.ctl.mode (s.win[n]).freeze }) :
    (thawed (frozenNow s.win) (firstAction s)).fill =
      { list := ((filledBy s ws).filter fun n => decide ((s.win[n]).freeze ≠ .frozen)) ++
          (filledBy s ws).filter fun n => decide ((s.win[n]).freeze = .frozen)
        offset := 0, active := true
        phase := if ((filledBy s ws).filter fun n => decide ((s.win[n]).freeze ≠ .frozen)) ≠ [] then .words
          else if s.marker.enabled = true then .marker else .due } := by
  rw [thawed_fill (firstAction_mode s) (frozenNow_sorted _) (fun _ => firstAction_frozen) (by rw [firstAction_fill])
    (by rw [firstAction_fill]), firstAction_fill, firstAction_list hm h, filledOf_frozen h]
  have apart : ((filledBy s ws).filter fun n => decide ((s.win[n]).freeze ≠ .frozen)).filter
      (fun m => decide (m ∉ (filledBy s ws).filter fun n => decide ((s.win[n]).freeze = .frozen))) =
        (filledBy s ws).filter fun n => decide ((s.win[n]).freeze ≠ .frozen) := by
    rw [List.filter_eq_self]
    intro n hn
    have hz : (s.win[n]).freeze ≠ .frozen := of_decide_eq_true (List.mem_filter.1 hn).2
    exact decide_eq_true fun hm => hz (of_decide_eq_true (List.mem_filter.1 hm).2)
  rw [apart]

/-- The fill after an expiry whose action is taken after the thaws: every window is at its own index (R137). -/
theorem lastAction_fill {s : State} (hm : ExpiryActs s) : (lastAction s).fill =
    { list := filledBy s (lastAction s).win, offset := 0, active := true,
      phase := if filledBy s (lastAction s).win ≠ [] then .words else if s.marker.enabled = true then .marker else .due } := by
  have hf := safeAction_fill ((thawed (frozenNow s.win) (timerStopped s)).setCauses (s.causes.setFlag .freezeExpired))
  rw [show safeAction ((thawed (frozenNow s.win) (timerStopped s)).setCauses (s.causes.setFlag .freezeExpired)) = lastAction s from rfl,
    fillWindows_filledBy (s := s) fun n => by rw [lastAction_win hm]; exact ⟨rfl, rfl⟩] at hf
  rw [hf, State.setCauses_marker, (thawed_frame _ _).2.2.2.2.2]
  rfl

/-- An abandoned reissue leaves no command in flight (R150). -/
theorem safeAction_abandons {s : State} (hm : s.ctl.mode = .safe) : (safeAction s).reissue.resuming = false ∧
    (safeAction s).mg = { s.mg with command := none, done := true, lastResult := { s.mg.lastResult with result := .abandoned } } := by
  rw [show safeAction s = abandonReissue s from if_pos hm, abandonReissue, beginFill_eq]
  exact ⟨rfl, rfl⟩

theorem setFlag_flag_same (u : CauseUnit) (c : Cause) : (u.setFlag c).flag c = true := by
  rw [CauseUnit.flag_setFlag]
  simp

/-- Settles O18: THAW by the rule of the mode, and the expiry in both orders, where the latching takes no action and where it brings
about SAFE. -/
theorem freezeTimerExpires : Obligations.FreezeTimerExpires := by
  refine ⟨fun l s hm hl hf => thawAll_gives hm hl hf, fun s hr hf hz => ?plain, fun s first hr hf hz ha hn hm hc => ?acts⟩
  case plain =>
    have he := exec_freezeTimerExpiry hr hf hz
    refine ⟨he true, he false, fun hm hi => ⟨thawed (frozenNow s.win) (timerStopped s), ?_, ?_, fun hc b => ?_⟩⟩
    · exact thawed_gives (s := timerStopped s) hm (frozenNow_sorted _) fun n hn => (mem_frozenNow _ n).1 hn
    · rw [he, (freezeExpiry_idle hi).1]
      rfl
    · rw [he, (freezeExpiry_idle hi).2 hc]
      rfl
  case acts =>
    replace hm : ExpiryActs s := hm
    rw [exec_freezeTimerExpiry hr hf hz]
    cases first
    · rw [freezeExpiry_last_acts ha hn hm hc]
      refine ⟨_, rfl, safeAction_mode _, ?_, lastAction_win hm, ?_, fun hs => ?_⟩
      · exact (safeAction_flag _).trans (setFlag_flag_same _ _)
      · exact lastAction_fill hm
      · obtain ⟨h1, h2⟩ := safeAction_abandons (s := (thawed (frozenNow s.win) (timerStopped s)).setCauses (s.causes.setFlag .freezeExpired))
          (show (thawed (frozenNow s.win) (timerStopped s)).ctl.mode = .safe by rw [(thawed_frame _ _).2.1]; exact hs)
        rw [State.setCauses_mg, (thawed_frame _ _).2.2.2.2.1] at h2
        exact ⟨h1, congrArg Management.command h2, congrArg Management.done h2, congrArg Management.lastResult h2⟩
    · rw [freezeExpiry_first_acts ha hn hm hc]
      obtain ⟨-, hctl, hcauses, hreissue, hmg, -⟩ := thawed_frame (frozenNow s.win) (firstAction s)
      refine ⟨_, rfl, ?_, ?_, firstAction_thawed_win hm, firstAction_thawed_fill hm (firstAction_thawed_win hm), fun hs => ?_⟩
      · rw [hctl]
        exact firstAction_mode s
      · rw [hcauses]
        exact (safeAction_flag _).trans (setFlag_flag_same _ _)
      · obtain ⟨h1, h2⟩ := safeAction_abandons (s := (timerStopped s).setCauses (s.causes.setFlag .freezeExpired)) hs
        rw [hreissue, hmg]
        exact ⟨h1, congrArg Management.command h2, congrArg Management.done h2, congrArg Management.lastResult h2⟩

end Sys2Proof.Machine
end

section
/-! PROOF. The management link: the reply on MG-OUT, the frames that end and the frames in error, requests that are unknown, and reads
(R162 to R168). -/

namespace Sys2Proof.Machine

/-! ## The reply phase -/

theorem Reply.bytes_length (r : Reply) : r.bytes.length = 6 := rfl

theorem mgOut_of_reply {s : State} {r : Reply} (hf : s.mg.frame = .taken ∨ s.mg.frame = .errored) (hr : s.mg.reply = some r) (k : Nat) :
    mgOut s k = (r.bytes[k / 8]?).map fun b => b.getLsbD (7 - k % 8) := by
  unfold mgOut
  rw [hr]
  exact if_pos hf

theorem mgOut_of_no_reply {s : State} (hr : s.mg.reply = none) (k : Nat) : mgOut s k = none := by
  unfold mgOut
  rw [hr]

theorem mgOut_of_no_frame {s : State} (hf : ¬(s.mg.frame = .taken ∨ s.mg.frame = .errored)) (k : Nat) : mgOut s k = none := by
  unfold mgOut
  split
  · exact if_neg hf
  · rfl

/-- Settles O20: bit k of the reply is bit 7 - k mod 8 of byte k / 8, and there is none past the sixth byte. -/
theorem replyClockedOut : Obligations.ReplyClockedOut := by
  intro s k
  refine ⟨fun r hf hr i j hk => ?bits, fun hk => ?after, fun hr => mgOut_of_no_reply hr k, fun hf => mgOut_of_no_frame ?_ k⟩
  case bits =>
    have hbyte : k / 8 = i.val := by omega
    have hbit : k % 8 = j.val := by omega
    rw [mgOut_of_reply hf hr, hbyte, hbit, List.getElem?_eq_getElem (by rw [Reply.bytes_length]; exact i.isLt)]
    change some _ = some ((r.bytes[i.val]?.getD 0).getLsbD _)
    rw [List.getElem?_eq_getElem (by rw [Reply.bytes_length]; exact i.isLt)]
    rfl
  case after =>
    by_cases hf : s.mg.frame = .taken ∨ s.mg.frame = .errored
    · cases hr : s.mg.reply with
      | none => exact mgOut_of_no_reply hr k
      | some r =>
        rw [mgOut_of_reply hf hr, List.getElem?_eq_none (by rw [Reply.bytes_length]; omega)]
        rfl
    · exact mgOut_of_no_frame hf k
  rcases hf with hf | hf <;> simp [hf]

/-! ## The end of a frame (R164, R165) -/

theorem exec_frameEnd {s : State} (h : s.lines.resetHeld = false) (f : Frame) (straps : BitVec 3) :
    exec (.frameEnd f straps) s = .next (endFrame f straps s) :=
  congrArg Host.Outcome.next (unlessReset_of_negated h _)

theorem unicastLength_iff (n : Nat) : unicastLength n = true ↔ n = 56 ∨ n = 104 := by simp [unicastLength]

theorem inError_iff (b : RequestBytes) : b.inError = true ↔ b.check ≠ b.expected ∨ b.operation = 3 := by simp [RequestBytes.inError]

theorem inError_eq_false_iff (b : RequestBytes) : b.inError = false ↔ b.check = b.expected ∧ b.operation ≠ 3 := by
  simp [RequestBytes.inError]

theorem isOurs_iff (b : RequestBytes) (identity : BitVec 3) : b.isOurs identity = true ↔ identity ≠ 7 ∧ b.target = identity := by
  simp [RequestBytes.isOurs]

section
variable {s : State} {f : Frame} (straps : BitVec 3)

theorem endFrame_of_told (h : s.mg.frame = .abandoned ∨ s.mg.frame = .errored) : endFrame f straps s = closeFrame s := by
  unfold endFrame
  rcases h with h | h <;> rw [h]

theorem endFrame_of_taken (h : s.mg.frame = .taken) :
    endFrame f straps s = if unicastLength f.edges then closeFrame s else closeFrame (latch .link s) := by
  unfold endFrame
  rw [h]

theorem endFrame_of_short (h : s.mg.frame = .none) (he : f.edges < 8) : endFrame f straps s = closeFrame s := by
  unfold endFrame
  rw [h]
  exact if_pos he

theorem endFrame_of_foreign (h : s.mg.frame = .none) (hb : f.bytes.target ≠ 7) (ho : f.bytes.target ≠ s.identity ∨ s.identity = 7) :
    endFrame f straps s = closeFrame s := by
  have hours : ¬f.bytes.isOurs s.identity = true := by
    rw [isOurs_iff]
    rintro ⟨h7, ht⟩
    exact ho.elim (fun h => h ht) h7
  unfold endFrame
  rw [h]
  simp only [RequestBytes.isBroadcast, hb, decide_false, Bool.false_eq_true, if_false, hours, ite_self]

theorem endFrame_of_ours (h : s.mg.frame = .none) (he : 8 ≤ f.edges) (ht : f.bytes.target = s.identity) (h7 : s.identity ≠ 7) :
    endFrame f straps s = endUntaken f s := by
  have hb : f.bytes.isBroadcast = false := decide_eq_false (ht ▸ h7)
  unfold endFrame
  rw [h]
  simp only [Nat.not_lt.2 he, if_false, hb, Bool.false_eq_true, (isOurs_iff _ _).2 ⟨h7, ht⟩, if_true]

theorem endFrame_of_broadcast (h : s.mg.frame = .none) (he : 8 ≤ f.edges) (ht : f.bytes.target = 7) :
    endFrame f straps s = endBroadcast f straps s := by
  have hb : f.bytes.isBroadcast = true := decide_eq_true ht
  unfold endFrame
  rw [h]
  simp only [Nat.not_lt.2 he, if_false, hb, if_true]

end

theorem exec_reset_broadcast {s : State} (hr : s.lines.resetHeld = false) (hf : s.mg.frame ≠ .abandoned) (argument : Word)
    (straps : BitVec 3) : exec (.reset .broadcast argument straps) s = .next (resetBroadcast argument straps s) :=
  congrArg Host.Outcome.next (if_pos (by simp [receiving, hr, hf]))

/-- Settles O21: a frame by what the commands have told of it, by its length and by its bytes. -/
theorem frameEndResult : Obligations.FrameEndResult := by
  refine ⟨fun f straps s hr => ⟨fun h => ?told, fun h hl => ?taken, fun h h1 h2 => ?wrong, fun h he => ?short, fun h hb ho => ?foreign,
    fun h he ht h7 => ⟨fun hbad => ?untold, fun hl hc ho => ?good⟩⟩, fun f straps s hr h he ht => ⟨fun hl hc ho hn => ?safe,
      fun hl hc ho hn => ?reset, fun hbad => ?other⟩⟩
  all_goals rw [exec_frameEnd hr]
  case told => rw [endFrame_of_told straps h]; rfl
  case taken => rw [endFrame_of_taken straps h, if_pos ((unicastLength_iff _).2 hl)]; rfl
  case wrong => rw [endFrame_of_taken straps h, if_neg (by rw [unicastLength_iff]; exact not_or.2 ⟨h1, h2⟩)]
  case short => rw [endFrame_of_short straps h he]; rfl
  case foreign => rw [endFrame_of_foreign straps h hb ho]; rfl
  case untold =>
    rw [endFrame_of_ours straps h he ht h7, endUntaken, if_neg]
    rintro ⟨hl, hg⟩
    rw [unicastLength_iff] at hl
    obtain ⟨hc, ho⟩ := (inError_eq_false_iff _).1 (by simpa using hg)
    rcases hbad with ⟨h1, h2⟩ | h | h
    · exact hl.elim h1 h2
    · exact h hc
    · exact ho h
  case good =>
    rw [endFrame_of_ours straps h he ht h7, endUntaken, if_pos ⟨(unicastLength_iff _).2 hl, by simp [(inError_eq_false_iff _).2 ⟨hc, ho⟩]⟩]
    rfl
  case safe =>
    rw [exec_safe_broadcast hr (by simp [h]), endFrame_of_broadcast straps h he ht, endBroadcast, if_neg, actOnBroadcast, if_pos ⟨ho, hn⟩]
    simp [hl, inError_eq_false_of_command hc ho]
  case reset =>
    rw [exec_reset_broadcast hr (by simp [h]), endFrame_of_broadcast straps h he ht, endBroadcast, if_neg, actOnBroadcast, if_neg, if_pos ⟨ho, hn⟩]
    · simp [hn]
    · simp [hl, inError_eq_false_of_command hc ho]
  case other =>
    rw [endFrame_of_broadcast straps h he ht, endBroadcast]
    split
    · rfl
    · rename_i hg
      rw [not_or, not_not] at hg
      obtain ⟨hc, -⟩ := (inError_eq_false_iff _).1 (by simpa using hg.2)
      rw [actOnBroadcast, if_neg, if_neg]
      all_goals
        rintro ⟨ho, hn⟩
        rcases hbad with h | h | h | ⟨h1, h2⟩
        · exact h hg.1
        · exact h hc
        · exact h ho
      · exact h2 hn
      · exact h1 hn

/-! ## Frames in error, and requests that are unknown -/

/-- A frame error at the 56th edge is the business of a bridge that receives frames (R162, R164). -/
theorem exec_frameError {s : State} (hr : s.lines.resetHeld = false) (hf : s.mg.frame ≠ .abandoned) (b : RequestBytes) :
    exec (.frameError b) s = .next (if b.inError = true then
      (if b.isBroadcast then errorFrame none s else if b.isOurs s.identity then errorFrame (some ⟨.check, 0⟩) s else s) else s) := by
  have hs : receiving s = true := by simp [receiving, hr, hf]
  refine congrArg Host.Outcome.next ?_
  by_cases hb : b.inError = true
  · rw [if_pos hb]
    exact if_pos ⟨hs, hb⟩
  · rw [if_neg hb]
    exact if_neg fun h => hb h.2

theorem exec_unknownRequest {s : State} (h : Listening s) (op : Operation) (number : Byte) (data : Word) :
    exec (.unknownRequest op number data) s = .next (takeGeneral op number data s) :=
  congrArg Host.Outcome.next (request_of_listening h _)

theorem command_ofCode_eq_none {x : Byte} (h : x.toNat = 0 ∨ 11 < x.toNat) : Command.ofCode x = none := by
  unfold Command.ofCode
  split <;> first | omega | rfl

/-- Settles O22: by whom the frame addresses and whether it is in error; and the general steps for a number or a code that is not
defined. -/
theorem badRequestsAnswered : Obligations.BadRequestsAnswered := by
  refine ⟨fun b s hr hf => ⟨fun hbad => ⟨fun ht h7 => ?ours, fun ht => ?broadcast, fun h7 ht => ?foreign⟩, fun hc ho => ?good⟩,
    fun op number data s hl => ⟨fun hop hn => ?item, fun straps hop hn => ?command⟩⟩
  case ours =>
    have hb : b.isBroadcast = false := decide_eq_false (ht ▸ h7)
    rw [exec_frameError hr hf, if_pos ((inError_iff b).2 hbad), if_neg (by simp [hb]), if_pos ((isOurs_iff _ _).2 ⟨h7, ht⟩)]
    rfl
  case broadcast =>
    have hb : b.isBroadcast = true := decide_eq_true ht
    rw [exec_frameError hr hf, if_pos ((inError_iff b).2 hbad), if_pos hb]
    rfl
  case foreign =>
    have hb : b.isBroadcast = false := decide_eq_false h7
    rw [exec_frameError hr hf, if_pos ((inError_iff b).2 hbad), if_neg (by simp [hb]), if_neg fun h => ht ((isOurs_iff _ _).1 h).2]
  case good => rw [exec_frameError hr hf, if_neg (by simp [(inError_eq_false_iff b).2 ⟨hc, ho⟩])]
  case item =>
    rw [exec_unknownRequest hl]
    rcases hop with rfl | rfl
    · rw [takeGeneral, hn]; rfl
    · rw [takeGeneral, takeWrite, hn]; rfl
  case command =>
    rw [exec_unknownRequest hl, hop, takeGeneral, command_ofCode_eq_none hn]
    rfl

/-! ## Reads -/

theorem exec_read {s : State} (h : Listening s) (number : Byte) (data : Word) {it : Item} (hn : Item.ofNumber number = some it) :
    exec (.unknownRequest .readItem number data) s = .next (takeRead it s) := by
  rw [exec_unknownRequest h, takeGeneral, hn]

/-- A read of an item with no row of its own changes nothing but the reply (log 11). -/
theorem readEffect_of_plain {it : Item} (hs : it ≠ .state) (hc : it ≠ .capture) (hd : it ≠ .imageData) (s : State) :
    readEffect it s = s := by
  cases it <;> first | rfl | contradiction

/-- Settles O24: a read is answered with the value before its effect, which three items have. -/
theorem readsAnswered : Obligations.ReadsAnswered := by
  intro s hl
  have state : exec .stateRead s = .next (takeRead .state s) := congrArg Host.Outcome.next (request_of_listening hl _)
  have capture : exec .captureRead s = .next (takeRead .capture s) := congrArg Host.Outcome.next (request_of_listening hl _)
  have data : exec .imageDataRead s = .next (takeRead .imageData s) := congrArg Host.Outcome.next (request_of_listening hl _)
  refine ⟨state, capture, data, fun number v it hn => ⟨fun hs hc hd => ?_, fun e => ?_, fun e => ?_, fun e => ?_⟩⟩
  · rw [exec_read hl number v hn, takeRead, readEffect_of_plain hs hc hd]
    rfl
  · rw [exec_read hl number v hn, e, state]
  · rw [exec_read hl number v hn, e, capture]
  · rw [exec_read hl number v hn, e, data]

end Sys2Proof.Machine
end

section
/-! PROOF. The values of the items, position by position (Tables 11-4, 11-7 to 11-10, R175). -/

namespace Sys2Proof.Machine

/-! ## A value built from fields -/

/-- The positions of a field read as the field. -/
@[simp] theorem extract_fieldAt {n : Nat} (x : BitVec n) (k : Nat) (h : k + n ≤ 32) : (fieldAt x k).extractLsb' k n = x := by
  ext i hi
  rw [BitVec.getElem_extractLsb', getLsbD_fieldAt x k (by omega)]
  simp [hi]

/-- Positions beside a field read as zero of it. -/
@[simp] theorem extract_fieldAt_apart {n : Nat} (x : BitVec n) (k : Nat) {a m : Nat} (h : a + m ≤ 32) (h' : a + m ≤ k ∨ k + n ≤ a) :
    (fieldAt x k).extractLsb' a m = 0#m := by
  ext i hi
  rw [BitVec.getElem_extractLsb', getLsbD_fieldAt x k (by omega)]
  rcases h' with h' | h'
  · simp [show ¬k ≤ a + i by omega]
  · simp [BitVec.getLsbD_of_ge x (a + i - k) (by omega)]

@[simp] theorem extract_bitAt_apart (b : Bool) (k : Nat) {a m : Nat} (h : a + m ≤ 32) (h' : a + m ≤ k ∨ k + 1 ≤ a) :
    (bitAt b k).extractLsb' a m = 0#m := by
  rw [bitAt_eq_fieldAt]
  exact extract_fieldAt_apart _ k h h'

@[simp] theorem getElem_fieldAt_apart {n : Nat} (x : BitVec n) (k : Nat) {i : Nat} (h : i < 32) (h' : i < k ∨ k + n ≤ i) :
    (fieldAt x k)[i] = false := by
  rw [getElem_fieldAt x k h]
  rcases h' with h' | h'
  · simp [show ¬k ≤ i by omega]
  · simp [BitVec.getLsbD_of_ge x (i - k) (by omega)]

@[simp] theorem toNat_bitAt_zero (b : Bool) : (bitAt b 0).toNat = b.toNat := by cases b <;> rfl

theorem Mode.code_eq (m : Mode) : m.code = match m with
    | .idle => 0#3 | .armed => 1#3 | .run => 2#3 | .ending => 3#3 | .safe => 4#3 := by cases m <;> rfl

/-! ## Priority lists -/

theorem priorityNibble_of_get {l : List Cause} {pos : Nat} {c : Cause} (h : l[pos]? = some c) (k : Nat) :
    priorityNibble l pos k = fieldAt (BitVec.ofNat 4 c.num) k := by
  simp [priorityNibble, h]

@[simp] theorem extract_priorityNibble_apart (l : List Cause) (pos k : Nat) {a m : Nat} (h : a + m ≤ 32)
    (h' : a + m ≤ k ∨ k + 4 ≤ a) : (priorityNibble l pos k).extractLsb' a m = 0#m := by
  unfold priorityNibble
  split
  · exact extract_fieldAt_apart _ k h h'
  · simp

theorem Cause.num_lt (c : Cause) : c.num < 10 := by cases c <;> decide

theorem toNat_causeNibble (c : Cause) : (BitVec.ofNat 4 c.num).toNat = c.num :=
  Nat.mod_eq_of_lt (Nat.lt_trans c.num_lt (by decide))

theorem priorityA_nibble {l : List Cause} {k : Nat} {c : Cause} (h : l[k]? = some c) (hk : k < 8) :
    ((layoutPriorityA l).extractLsb' (4 * k) 4).toNat = c.num := by
  rw [← toNat_causeNibble c]
  interval_cases k <;> simp [layoutPriorityA, BitVec.extractLsb'_or, priorityNibble_of_get h]

theorem priorityB_nibble {l : List Cause} {k : Nat} {c : Cause} (h : l[k]? = some c) (h8 : 8 ≤ k) (hk : k < 10) :
    ((layoutPriorityB l).extractLsb' (4 * (k - 8)) 4).toNat = c.num := by
  rw [← toNat_causeNibble c]
  interval_cases k <;> simp [layoutPriorityB, BitVec.extractLsb'_or, priorityNibble_of_get h]

/-! ## Sets of windows -/

theorem getLsbD_layoutWinSet (l : List WinIdx) (k : Nat) : (layoutWinSet l).getLsbD k = decide (∃ n ∈ l, n.val = k) := by
  have fold : ∀ w : Word, (l.foldl (fun w n => w ||| bitAt true n.val) w).getLsbD k = (w.getLsbD k || decide (∃ n ∈ l, n.val = k)) := by
    induction l with
    | nil => simp
    | cons n l ih =>
      intro w
      have bit : (bitAt true n.val).getLsbD k = decide (n.val = k) := by
        by_cases hk : k < 32
        · simp [getLsbD_bitAt true n.val hk, eq_comm]
        · rw [BitVec.getLsbD_of_ge _ _ (Nat.not_lt.1 hk)]
          simp [show ¬n.val = k by omega]
      rw [List.foldl_cons, ih, BitVec.getLsbD_or, bit, Bool.or_assoc]
      congr 1
      simp
  simpa [layoutWinSet] using fold 0

theorem mem_frozenSet (ws : Windows) (n : WinIdx) : n ∈ frozenSet ws ↔ (ws[n]).freeze = .frozen ∨ (ws[n]).freeze = .thawPending := by
  simp only [frozenSet, List.mem_filter, mem_allWin, true_and]
  cases (ws[n]).freeze <;> simp [Freeze.cutOff]

/-! ## The items -/

section
variable (s : State) {v : Word}

theorem ident_laidOut (hv : v = itemValue s .ident) : v.extractLsb' 16 16 = 0x1620#16 ∧ v.extractLsb' 8 8 = 1#8 ∧
    v.extractLsb' 3 5 = 0#5 ∧ v.extractLsb' 0 3 = s.identity := by
  subst hv
  simp [itemValue, BitVec.extractLsb'_or]

theorem state_laidOut (hv : v = itemValue s .state) :
    v.extractLsb' 0 3 = (match s.ctl.mode with | .idle => 0#3 | .armed => 1#3 | .run => 2#3 | .ending => 3#3 | .safe => 4#3) ∧
    v.getLsbD 3 = s.ctl.stopPending ∧ v.getLsbD 4 = s.sampler.done ∧ v.getLsbD 5 = s.fill.active ∧
    v.getLsbD 6 = s.reissue.resuming ∧ v.getLsbD 7 = s.mg.command.isSome ∧ v.getLsbD 8 = s.mg.done ∧
    v.getLsbD 9 = s.mg.collision ∧ v.extractLsb' 10 22 = 0#22 := by
  subst hv
  rw [← Mode.code_eq]
  simp [itemValue, BitVec.extractLsb'_or, getElem_bitAt]

theorem lastResult_laidOut (hv : v = itemValue s .lastResult) : v.extractLsb' 0 4 = s.mg.lastResult.result.code ∧
    v.extractLsb' 4 4 = 0#4 ∧ v.extractLsb' 8 8 = s.mg.lastResult.code ∧ v.extractLsb' 16 8 = s.mg.lastResult.argument ∧
    v.extractLsb' 24 8 = 0#8 := by
  subst hv
  simp [itemValue, BitVec.extractLsb'_or]

theorem getLsbD_causeBit (x : BitVec 10) (c : Cause) : (fieldAt x 0).getLsbD c.num = x.getLsbD c.num := by
  rw [getLsbD_fieldAt x 0 (Nat.lt_trans c.num_lt (by decide))]
  simp

theorem causes_laidOut (hv : v = itemValue s .causes) : (∀ c : Cause, v.getLsbD c.num = s.causes.flag c) ∧ v.extractLsb' 10 22 = 0#22 := by
  subst hv
  exact ⟨getLsbD_causeBit s.causes.flags, extract_fieldAt_apart _ _ (by decide) (by decide)⟩

theorem actions_laidOut (hv : v = itemValue s .actions) :
    (∀ c : Cause, v.getLsbD c.num = s.causes.actionSafe c) ∧ v.extractLsb' 10 22 = 0#22 := by
  subst hv
  exact ⟨getLsbD_causeBit s.causes.actions, extract_fieldAt_apart _ _ (by decide) (by decide)⟩

theorem conditions_laidOut (hv : v = itemValue s .conditions) : v.getLsbD 0 = s.lines.fltIn ∧ v.getLsbD 1 = stageLowCondition s ∧
    v.getLsbD 2 = s.lines.alrIn ∧ v.getLsbD 3 = fltOut s ∧ v.getLsbD 4 = alrOut s ∧ v.extractLsb' 5 27 = 0#27 := by
  subst hv
  simp [itemValue, BitVec.extractLsb'_or, getElem_bitAt]

theorem leadCause_laidOut : (itemValue s .leadCause).toNat = (match s.causes.leadCause with | some c => c.num | none => 15) := by
  unfold itemValue
  cases s.causes.leadCause with
  | none => rfl
  | some c => exact Nat.mod_eq_of_lt (Nat.lt_trans c.num_lt (by decide))

theorem quietMark_laidOut : (itemValue s .quietMark).toNat = s.causes.quietMark.val :=
  Nat.mod_eq_of_lt (Nat.lt_trans s.causes.quietMark.isLt (by decide))

theorem force_laidOut (hv : v = itemValue s .force) :
    v.getLsbD 0 = s.causes.forceFault ∧ v.getLsbD 1 = s.causes.forceAlert ∧ v.extractLsb' 2 30 = 0#30 := by
  subst hv
  simp [itemValue, BitVec.extractLsb'_or, getElem_bitAt]

theorem BusMark.layout_laidOut (m : BusMark) :
    m.layout.extractLsb' 0 22 = m.addr ∧ m.layout.extractLsb' 22 9 = 0#9 ∧ m.layout.getLsbD 31 = m.enabled := by
  simp [BusMark.layout, BitVec.extractLsb'_or, getElem_bitAt]

theorem capture_laidOut (hv : v = itemValue s .capture) : v.extractLsb' 0 24 = s.timing.capture ∧ v.getLsbD 24 = s.timing.captured ∧
    v.getLsbD 25 = s.timing.captureOverrun ∧ v.extractLsb' 26 6 = 0#6 := by
  subst hv
  simp [itemValue, BitVec.extractLsb'_or, getElem_bitAt]

theorem poolLevels_laidOut (hv : v = itemValue s .poolLevels) : v.extractLsb' 0 9 = BitVec.ofNat 9 (openCount s) ∧
    v.extractLsb' 9 7 = 0#7 ∧ v.extractLsb' 16 9 = BitVec.ofNat 9 (queuedCount s) ∧ v.extractLsb' 25 3 = 0#3 ∧
    v.extractLsb' 28 3 = BitVec.ofNat 3 s.release.queue.length ∧ v.getLsbD 31 = false := by
  subst hv
  simp [itemValue, BitVec.extractLsb'_or]

theorem freezeTimer_laidOut (hv : v = itemValue s .freezeTimer) : v.extractLsb' 0 8 = s.freeze.setting ∧
    v.getLsbD 8 = decide (s.freeze.range = .minutes) ∧ v.extractLsb' 9 6 = 0#6 ∧ v.getLsbD 15 = s.freeze.running ∧
    v.extractLsb' 16 8 = s.freeze.remaining ∧ v.extractLsb' 24 8 = 0#8 := by
  subst hv
  simp [itemValue, BitVec.extractLsb'_or, getElem_bitAt]

theorem frozenSet_laidOut (k : Nat) : (itemValue s .frozenSet).getLsbD k = decide (∃ n : WinIdx, n.val = k ∧
    ((s.win[n]).freeze = .frozen ∨ (s.win[n]).freeze = .thawPending)) := by
  refine (getLsbD_layoutWinSet _ k).trans (decide_eq_decide.2 (exists_congr fun n => ?_))
  rw [mem_frozenSet, and_comm]

theorem resumePolicy_laidOut : (itemValue s .resumePolicy).toNat = (match s.reissue.policy with | .fresh => 0 | .reissue => 1) := by
  unfold itemValue
  cases s.reissue.policy <;> rfl

theorem imageData_laidOut (k : Fin 4) : lane k.val (itemValue s .imageData) = s.image.byte (4 * s.pointer.toNat + k.val) :=
  Store.lane_word _ _ k

theorem Marks.layout_laidOut (m : Marks) : m.layout.extractLsb' 0 4 = m.valid ∧ m.layout.extractLsb' 4 4 = m.owed ∧
    m.layout.getLsbD 8 = m.held ∧ m.layout.getLsbD 9 = m.fresh ∧ m.layout.extractLsb' 10 22 = 0#22 := by
  simp [Marks.layout, BitVec.extractLsb'_or, getElem_bitAt]

theorem Policy.code_eq (p : Policy) : p.code = match p with | .hold => 0#2 | .zero => 1#2 | .pattern => 2#2 := by cases p <;> rfl

theorem Freeze.code_eq (f : Freeze) : f.code = match f with
    | .opened => 0#2 | .freezePending => 1#2 | .frozen => 2#2 | .thawPending => 3#2 := by cases f <;> rfl

theorem Fields.layoutA_laidOut (f : Fields) : f.layoutA.extractLsb' 0 22 = f.base ∧ f.layoutA.extractLsb' 22 2 = 0#2 ∧
    f.layoutA.getLsbD 24 = decide (f.kind = .output) ∧
    f.layoutA.extractLsb' 25 2 = (match f.policy with | .hold => 0#2 | .zero => 1#2 | .pattern => 2#2) ∧
    f.layoutA.extractLsb' 27 5 = 0#5 := by
  rw [← Policy.code_eq]
  simp [Fields.layoutA, BitVec.extractLsb'_or, getElem_bitAt]

theorem Window.layoutB_laidOut (w : Window) : w.layoutB.extractLsb' 0 9 = w.descriptor.length ∧ w.layoutB.getLsbD 9 = w.defined ∧
    w.layoutB.extractLsb' 10 10 = w.descriptor.imageBase ∧ w.layoutB.extractLsb' 20 10 = w.descriptor.safeBase ∧
    w.layoutB.extractLsb' 30 2 =
      (match w.freeze with | .opened => 0#2 | .freezePending => 1#2 | .frozen => 2#2 | .thawPending => 3#2) := by
  rw [← Freeze.code_eq]
  simp [Window.layoutB, BitVec.extractLsb'_or, getElem_bitAt]

end

/-! ## Item numbers (Table 11-4) -/

/-- The numbers of the items but those of the windows. -/
def itemNumbers : List (Byte × Item) :=
  [(0x00#8, Item.ident), (0x01#8, .state), (0x02#8, .lastResult), (0x08#8, .causes), (0x09#8, .conditions),
    (0x0A#8, .leadCause), (0x0B#8, .actions), (0x0C#8, .priorityA), (0x0D#8, .priorityB), (0x0E#8, .quietMark),
    (0x0F#8, .qualify .chain), (0x10#8, .qualify .stageLow), (0x11#8, .force), (0x18#8, .markAddress),
    (0x19#8, .markerAddress), (0x20#8, Item.watchdogPeriod), (0x21#8, .cycleNumber), (0x22#8, .lastPeriod),
    (0x23#8, .longestPeriod), (0x24#8, .capture), (0x25#8, .prescale), (0x28#8, .poolLevels), (0x29#8, .stageLowThreshold),
    (0x30#8, .freezeTimer), (0x31#8, .frozenSet), (0x38#8, .resumePolicy), (0x39#8, .lock), (0x40#8, .imagePointer),
    (0x41#8, .imageData), (0x42#8, .imageMarks)]

theorem ofNumber_of_mem : ∀ e ∈ itemNumbers, Item.ofNumber e.1 = some e.2 := by decide

theorem ofNumber_window (n : WinIdx) : Item.ofNumber (BitVec.ofNat 8 (0x80 + 2 * n.val)) = some (.window n .a) ∧
    Item.ofNumber (BitVec.ofNat 8 (0x81 + 2 * n.val)) = some (.window n .b) := by
  revert n
  decide

theorem ofNumber_eq_none {x : Byte} (hx : x ∉ itemNumbers.map (·.1)) (hw : x.toNat < 0x80 ∨ 0x9F < x.toNat) :
    Item.ofNumber x = none := by
  have hn : x.toNat ∉ itemNumbers.map (·.1.toNat) := fun h => by
    obtain ⟨e, he, hex⟩ := List.mem_map.1 h
    exact hx (List.mem_map.2 ⟨e, he, BitVec.eq_of_toNat_eq hex⟩)
  unfold Item.ofNumber
  split
  case h_31 =>
    split
    · exact absurd hw (by omega)
    · rfl
  all_goals
    rename_i h
    refine absurd ?_ hn
    rw [h]
    decide

/-- Settles O23: every value is fields and flags side by side, each read at its own positions. -/
theorem itemsLaidOut : Obligations.ItemsLaidOut := by
  refine ⟨fun s => ⟨ident_laidOut s rfl, state_laidOut s rfl, lastResult_laidOut s rfl, causes_laidOut s rfl, actions_laidOut s rfl,
      conditions_laidOut s rfl, leadCause_laidOut s, fun k c h => ⟨priorityA_nibble h, priorityB_nibble h⟩, ?priorityB,
      quietMark_laidOut s, fun c => toNat_fieldAt_zero _ (by decide), force_laidOut s rfl, fun m hm => ?mark⟩,
    fun s => ⟨toNat_fieldAt_zero _ (by decide), toNat_fieldAt_zero _ (by decide), toNat_fieldAt_zero _ (by decide),
      toNat_fieldAt_zero _ (by decide), capture_laidOut s rfl, toNat_fieldAt_zero _ (by decide), poolLevels_laidOut s rfl,
      toNat_fieldAt_zero _ (by decide), freezeTimer_laidOut s rfl, frozenSet_laidOut s, resumePolicy_laidOut s, toNat_bitAt_zero _,
      toNat_fieldAt_zero _ (by decide), imageData_laidOut s, Marks.layout_laidOut _, fun n => ?window⟩,
    ⟨ofNumber_of_mem, ofNumber_window, fun x => ofNumber_eq_none⟩, rfl, rfl⟩
  case priorityB => simp [itemValue, layoutPriorityB, BitVec.extractLsb'_or]
  case mark =>
    rcases hm with rfl | rfl
    · exact s.mark.layout_laidOut
    · exact s.marker.layout_laidOut
  case window =>
    obtain ⟨a1, a2, a3, a4, a5⟩ := (s.win[n]).descriptor.layoutA_laidOut
    exact ⟨a1, a2, a3, a4, a5, (s.win[n]).layoutB_laidOut⟩

end Sys2Proof.Machine
end

section
/-! PROOF. STOP, RESUME, FREEZE and THAW (R26, R27, R107 to R111, R144 to R146). -/

namespace Sys2Proof.Machine
/-! ## STOP -/

/-- With no access at the Controller Port there is nothing to route anew. -/
theorem ackReply_reroute_of_idle {b t : State} (h : t.cp = .idle) : ackReply (reroute b t) = t.setMg (t.mg.replied .ack 0) := by
  have hs : CpStill t.cp := by simp [CpStill, h]
  rw [reroute_of_still hs]
  rfl

theorem exec_stop_of_attending {s : State} (h : Attending s) (argument : Word) : exec (.stop argument) s = .next (takeStop s) :=
  congrArg Host.Outcome.next (guarded_of_attending h takeStop)

theorem frozenNow_eq_nil_iff (ws : Windows) : frozenNow ws = [] ↔ ∀ n : WinIdx, (ws[n]).freeze ≠ .frozen := by
  simp [List.eq_nil_iff_forall_not_mem, mem_frozenNow]

section
variable {s : State}

theorem takeStop_of_still (hm : s.ctl.mode = .idle ∨ s.ctl.mode = .ending) : takeStop s = ackReply s := by
  rcases hm with hm | hm <;> rw [takeStop, hm]

theorem takeStop_of_run (hm : s.ctl.mode = .run) : takeStop s = if s.ctl.stopPending then ackReply s
    else if !allOpen s.win then refuse .mode s else ackReply (s.setCtl { s.ctl with stopPending := true }) := by
  rw [takeStop, hm]

theorem takeStop_of_armed (hm : s.ctl.mode = .armed) : takeStop s =
    if !allOpen s.win then refuse .mode s else ackReply (reroute s (stopArmed s)) := by
  rw [takeStop, hm]

theorem takeStop_of_safe (hm : s.ctl.mode = .safe) : takeStop s = if s.fill.active then answer .busy 0 s
    else if frozenNow s.win ≠ [] then refuse .mode s else ackReply (reroute s (stopSafe s)) := by
  rw [takeStop, hm]

end

/-- Settles O27: STOP by its mode, and the access that waits routed anew where the mode changes. -/
theorem stopResult : Obligations.StopResult := by
  intro argument s ha
  rw [exec_stop_of_attending ha]
  simp only [← allOpen_iff, ← frozenNow_eq_nil_iff, Bool.not_eq_true]
  refine ⟨fun hm => ?still, fun hm hp => ?pending, fun hm hp ho => ?run, fun hm hp ho => ?runFrozen, fun hm ho => ?armedFrozen,
    fun hm ho => ?armed, fun hm hf => ?busy, fun hm hf hz => ?safeFrozen, fun hm hf hz => ?safe⟩
  case still => rw [takeStop_of_still hm]; rfl
  case pending => rw [takeStop_of_run hm, if_pos hp]; rfl
  case run => rw [takeStop_of_run hm, hp, ho]; rfl
  case runFrozen => rw [takeStop_of_run hm, hp, ho]; rfl
  case armedFrozen => rw [takeStop_of_armed hm, ho]; rfl
  case armed =>
    rw [takeStop_of_armed hm, ho]
    exact ⟨rfl, fun hc => congrArg Host.Outcome.next (ackReply_reroute_of_idle hc)⟩
  case busy => rw [takeStop_of_safe hm, if_pos hf]; rfl
  case safeFrozen =>
    have hz' : frozenNow s.win ≠ [] := mt (frozenNow_eq_nil_iff _).1 (by simpa using hz)
    rw [takeStop_of_safe hm, hf, if_pos hz']; rfl
  case safe =>
    rw [takeStop_of_safe hm, hf, hz]
    exact ⟨rfl, fun hc => congrArg Host.Outcome.next (ackReply_reroute_of_idle hc)⟩

/-! ## RESUME -/

theorem exec_resume_of_attending {s : State} (h : Attending s) (argument : Word) : exec (.resume argument) s = .next (takeResume s) :=
  congrArg Host.Outcome.next (guarded_of_attending h takeResume)

theorem someSafeFlag_eq_false_iff (u : CauseUnit) : someSafeFlag u = false ↔ ∀ c, u.flag c = true → u.actionSafe c = false := by
  simp [someSafeFlag, List.any_eq_false, mem_allCauses]

theorem reissueFrom_setMg (n : WinIdx) (off : Nat) (m : Management) (s : State) :
    reissueFrom n off (s.setMg m) = (reissueFrom n off s).setMg m := by
  rcases h : seekReissue s.win (allWin.filter fun m => decide (n ≤ m)) off s.image with ⟨st, - | p⟩ <;>
    simp only [reissueFrom, State.setMg_win, State.setMg_image, h] <;> rfl

/-- The walk of a reissue changes its own place and the marks it passes, and nothing else. -/
theorem reissueFrom_eq (n : WinIdx) (off : Nat) (s : State) :
    reissueFrom n off s = (s.setReissue (reissueFrom n off s).reissue).setImage (reissueFrom n off s).image := by
  unfold reissueFrom
  split <;> rfl

theorem reissueFrom_reissue (n : WinIdx) (off : Nat) (s : State) : (reissueFrom n off s).reissue.resuming = s.reissue.resuming := by
  unfold reissueFrom
  split <;> rfl

theorem seekReissue_byte (ws : Windows) (l : List WinIdx) (off : Nat) (st : Store) (a : Nat) :
    (seekReissue ws l off st).1.byte a = st.byte a := by
  induction l generalizing off st with
  | nil => rfl
  | cons n l ih =>
    unfold seekReissue
    split
    · exact ih 0 st
    · split
      · exact ih 0 (st.oweValid _)
      · split
        · rfl
        · exact ih 0 st

theorem reissueFrom_byte (n : WinIdx) (off : Nat) (s : State) (a : Nat) : (reissueFrom n off s).image.byte a = s.image.byte a := by
  have hb := seekReissue_byte s.win (allWin.filter fun m => decide (n ≤ m)) off s.image a
  unfold reissueFrom
  split <;> (next h => rw [h] at hb; exact hb)

theorem takeResume_taken {s : State} (hm : s.ctl.mode = .safe) (hf : s.fill.active = false) (hc : someSafeFlag s.causes = false)
    (hl : s.lines.fltIn = false) : takeResume s = match s.reissue.policy with
      | .fresh => ackReply (reroute s (enterArmed s))
      | .reissue => answer .accepted 0 (beginReissue s) := by
  rw [takeResume, if_neg (not_not.2 hm), hf, hc, hl]
  rfl

/-- The reply can be formed before the reissue seeks its first word: neither touches what the other does. -/
theorem answer_beginReissue (s : State) : answer .accepted 0 (beginReissue s) =
    reissueFrom 0 0 ((s.setReissue { s.reissue with resuming := true, phase := .words }).setMg
      ({ s.mg with command := some .reissue, done := false, lastResult := ⟨.pending, 0x03, 0⟩ }.replied .accepted 0)) := by
  unfold beginReissue answer takeInFlight
  simp only [reissueFrom_setMg]
  rfl

/-- Settles O28: where the reissue comes to, and the tests of RESUME with both policies. -/
theorem resumeResult : Obligations.ResumeResult := by
  refine ⟨fun n off s => ⟨fun hw => reissueFrom_comesTo hw n off, fun hp hq => ?place, fun h => ?stays⟩, fun argument s ha => ?_⟩
  case place => rw [reissueOn, hp, hq]
  case stays =>
    unfold reissueOn
    split
    · next n' off' hp hq => rcases h with h | h <;> simp_all
    · rfl
  rw [exec_resume_of_attending ha, ← someSafeFlag_eq_false_iff]
  refine ⟨fun hm => ?mode, fun hm hf => ?busy, fun hm hf hc => ?flag, fun hm hf hl => ?line, fun hm hf hc hl hp => ?fresh,
    fun hm hf hc hl hp => ?reissue⟩
  case mode => rw [takeResume, if_pos hm]; rfl
  case busy => rw [takeResume, if_neg (not_not.2 hm), if_pos hf]; rfl
  case flag =>
    rw [takeResume, if_neg (not_not.2 hm), hf, if_neg Bool.false_ne_true, if_pos (by simpa using hc)]; rfl
  case line =>
    rw [takeResume, if_neg (not_not.2 hm), hf, if_neg Bool.false_ne_true, hl, if_pos rfl, ite_self]; rfl
  case fresh =>
    rw [takeResume_taken hm hf hc hl, hp]
    exact ⟨rfl, fun hcp => congrArg Host.Outcome.next (ackReply_reroute_of_idle hcp)⟩
  case reissue =>
    rw [takeResume_taken hm hf hc hl, hp]
    refine ⟨_, congrArg Host.Outcome.next (answer_beginReissue s), by simp, by rw [reissueFrom_reissue]; rfl, ?_,
      fun a => reissueFrom_byte 0 0 _ a, fun hw => reissueFrom_comesTo (by exact hw) 0 0⟩
    exact (reissueFrom_eq 0 0 _).trans (by simp; rfl)


/-! ## FREEZE and THAW -/

theorem exec_freeze_of_attending {s : State} (h : Attending s) (argument : Word) :
    exec (.freeze argument) s = .next (takeFreeze argument s) :=
  congrArg Host.Outcome.next (guarded_of_attending h (takeFreeze argument))

theorem exec_thaw_of_attending {s : State} (h : Attending s) (argument : Word) : exec (.thaw argument) s = .next (takeThaw argument s) :=
  congrArg Host.Outcome.next (guarded_of_attending h (takeThaw argument))

theorem windowArg_eq_none {v : Word} (h : 15 < v.toNat) : windowArg v = none := dif_neg (by omega)

theorem windowArg_eq_some {v : Word} {n : WinIdx} (h : v.toNat = n.val) : windowArg v = some n :=
  (dif_pos (h ▸ n.isLt)).trans (congrArg some (Fin.ext h))

section
variable {v : Word} {n : WinIdx} {s : State} (good : WinIdx → State → State)

theorem freezeTests_of_bad_argument (h : 15 < v.toNat) : freezeTests v good s = refuse .argument s := by
  rw [freezeTests, windowArg_eq_none h]

theorem freezeTests_of_mode (h : v.toNat = n.val) (hm : s.ctl.mode = .idle ∨ s.ctl.mode = .ending ∨ s.ctl.stopPending = true) :
    freezeTests v good s = refuse .mode s := by
  rw [freezeTests, windowArg_eq_some h]
  dsimp only
  by_cases hx : s.ctl.mode = .idle ∨ s.ctl.mode = .ending
  · rw [if_pos hx]
  · have hp : s.ctl.stopPending = true := (or_assoc.2 hm).resolve_left hx
    rw [if_neg hx, if_pos hp]

theorem freezeTests_of_undefined (h : v.toNat = n.val) (hi : s.ctl.mode ≠ .idle) (he : s.ctl.mode ≠ .ending)
    (hp : s.ctl.stopPending = false) (hd : (s.win[n]).defined = false) : freezeTests v good s = refuse .argument s := by
  rw [freezeTests, windowArg_eq_some h]
  dsimp only
  rw [if_neg (not_or.2 ⟨hi, he⟩), hp, if_neg Bool.false_ne_true, hd, if_pos (by rfl)]

theorem freezeTests_taken (h : v.toNat = n.val) (hi : s.ctl.mode ≠ .idle) (he : s.ctl.mode ≠ .ending)
    (hp : s.ctl.stopPending = false) (hd : (s.win[n]).defined = true) : freezeTests v good s = good n s := by
  rw [freezeTests, windowArg_eq_some h]
  dsimp only
  rw [if_neg (not_or.2 ⟨hi, he⟩), hp, if_neg Bool.false_ne_true, hd, if_neg (by decide)]

end

theorem setFreezeState_at (ws : Windows) (n : WinIdx) (f : Freeze) : ((setFreezeState ws n f)[n]).freeze = f := by
  rw [setFreezeState_get, if_pos rfl]

theorem setFreezeState_each (ws : Windows) (n m : WinIdx) (f : Freeze) :
    (setFreezeState ws n f)[m] = { ws[m] with freeze := if m = n then f else (ws[m]).freeze } := by
  rw [setFreezeState_get]
  by_cases h : n = m
  · rw [if_pos h, if_pos h.symm]
  · rw [if_neg h, if_neg (Ne.symm h)]

/-- FREEZE n changes the table, the timer and the first-flush set alone. -/
theorem freezeWindow_eq (n : WinIdx) (s : State) : freezeWindow n s =
    (s.setWin (setFreezeState s.win n (freezeTo s.ctl.mode (s.win[n]).freeze))).setFreeze
      { s.freeze.follow s.win (setFreezeState s.win n (freezeTo s.ctl.mode (s.win[n]).freeze)) with
        firstFlush := if s.ctl.mode = .armed ∧ (s.win[n]).freeze = .opened then s.freeze.firstFlush.filter (fun m => decide (m ≠ n))
          else s.freeze.firstFlush } := by
  unfold freezeWindow
  dsimp only
  rw [setWindows_firstFlush]
  by_cases hx : s.ctl.mode = .armed ∧ (s.win[n]).freeze = .opened
  · rw [if_pos hx, if_pos hx]
    rfl
  · rw [if_neg hx, if_neg hx, ← FreezeControl.follow_firstFlush s.freeze s.win]
    rfl

/-- The table, the timer and, in ARMED, the first-flush set, as THAW n leaves them. -/
def thawTable (n : WinIdx) (s : State) : State :=
  (s.setWin (setFreezeState s.win n (thawTo s.ctl.mode (s.win[n]).freeze))).setFreeze
    { s.freeze.follow s.win (setFreezeState s.win n (thawTo s.ctl.mode (s.win[n]).freeze)) with
      firstFlush := if s.ctl.mode = .armed ∧ (s.win[n]).freeze = .frozen then joinWin s.freeze.firstFlush [n] else s.freeze.firstFlush }

/-- THAW n hands a FROZEN window over to the fill in SAFE, and changes the table, the timer and the first-flush set alone otherwise. -/
theorem thawWindow_eq (n : WinIdx) (s : State) : thawWindow n s =
    if s.ctl.mode = .safe ∧ (s.win[n]).freeze = .frozen then handOver n (thawTable n s) else thawTable n s := by
  have hf := FreezeControl.follow_firstFlush s.freeze s.win (setFreezeState s.win n (thawTo s.ctl.mode (s.win[n]).freeze))
  unfold thawWindow thawTable setWindows
  dsimp only [State.setFreeze_freeze]
  rw [hf]
  generalize setFreezeState s.win n (thawTo s.ctl.mode (s.win[n]).freeze) = ws at hf ⊢
  have hs : (s.setWin ws).setFreeze (s.freeze.follow s.win ws) =
      (s.setWin ws).setFreeze { s.freeze.follow s.win ws with firstFlush := s.freeze.firstFlush } := by rw [← hf]
  generalize (s.win[n]).freeze = z
  by_cases hz : z = .frozen
  · cases s.ctl.mode <;> simp [hz, hs]
    rfl
  · simp [hz, hs]

theorem isFilled_thawTable (n : WinIdx) (s : State) : isFilled (thawTable n s).win[n] = isFilled s.win[n] := by
  change isFilled (setFreezeState s.win n _)[n] = _
  rw [setFreezeState_each]
  rfl

theorem handOver_eq (n : WinIdx) (s : State) : handOver n s = (s.setFill (handOver n s).fill).setMp (handOver n s).mp := by
  unfold handOver
  split
  · dsimp only
    split <;> rfl
  · rfl

theorem thawWindow_win (n : WinIdx) (s : State) :
    (thawWindow n s).win = setFreezeState s.win n (thawTo s.ctl.mode (s.win[n]).freeze) := by
  rw [thawWindow_eq, apply_ite State.win, (handOver_frame n _).2.2.2.2.2.1, ite_self]
  rfl

theorem thawWindow_freeze (n : WinIdx) (s : State) : (thawWindow n s).freeze = (thawTable n s).freeze := by
  rw [thawWindow_eq, apply_ite State.freeze]
  simp only [handOver_frame, ite_self]

theorem thawWindow_handedOver {n : WinIdx} {s : State} (hm : s.ctl.mode = .safe) (hz : (s.win[n]).freeze = .frozen)
    (hf : isFilled s.win[n] = true) : HandedOver [n] s (thawWindow n s) := by
  rw [thawWindow_eq, if_pos ⟨hm, hz⟩]
  exact handOver_handedOver (s := thawTable n s) ((isFilled_thawTable n s).trans hf)

theorem thawWindow_of_no_fill {n : WinIdx} {s : State}
    (h : s.ctl.mode ≠ .safe ∨ (s.win[n]).freeze ≠ .frozen ∨ isFilled s.win[n] = false) : thawWindow n s = thawTable n s := by
  rw [thawWindow_eq]
  by_cases hx : s.ctl.mode = .safe ∧ (s.win[n]).freeze = .frozen
  · have hf : isFilled s.win[n] = false := (h.resolve_left (not_not.2 hx.1)).resolve_left (not_not.2 hx.2)
    rw [if_pos hx, handOver_of_not_filled]
    rw [isFilled_thawTable, hf]
    exact Bool.false_ne_true
  · rw [if_neg hx]

theorem thawWindow_rest (n : WinIdx) (s : State) : thawWindow n s =
    (((s.setWin (thawWindow n s).win).setFreeze (thawWindow n s).freeze).setFill (thawWindow n s).fill).setMp (thawWindow n s).mp := by
  rw [thawWindow_win, thawWindow_freeze, thawWindow_eq]
  by_cases hx : s.ctl.mode = .safe ∧ (s.win[n]).freeze = .frozen
  · rw [if_pos hx]
    exact handOver_eq n (thawTable n s)
  · rw [if_neg hx]
    rfl

/-- THAW n leaves the access in flight its address and its data. -/
theorem thawWindow_access (n : WinIdx) (s : State) :
    ((thawWindow n s).mp.map fun p => (p.addr, p.write, p.enables, p.data)) = s.mp.map fun p => (p.addr, p.write, p.enables, p.data) := by
  by_cases hx : s.ctl.mode ≠ .safe ∨ (s.win[n]).freeze ≠ .frozen ∨ isFilled s.win[n] = false
  · rw [thawWindow_of_no_fill hx]
    rfl
  · obtain ⟨hm, hz, hf⟩ : s.ctl.mode = .safe ∧ (s.win[n]).freeze = .frozen ∧ isFilled s.win[n] = true := by simpa using hx
    exact (thawWindow_handedOver hm hz hf).2.2.2

/-- Settles O30: FREEZE and THAW by their tests and Table 7-2, with the timer, the first-flush set and the fill. -/
theorem freezeAndThawResult : Obligations.FreezeAndThawResult := by
  refine ⟨fun argument s ha => ⟨fun h => ?badFreeze, fun n h => ⟨fun hm => ?modeFreeze, fun hi he hp =>
      ⟨fun hd => ?undefinedFreeze, fun hd hz => ?setting, fun hd hz => ?freezes⟩⟩⟩,
    fun argument s ha => ⟨fun h => ?badThaw, fun n h => ⟨fun hm => ?modeThaw, fun hi he hp =>
      ⟨fun hd => ?undefinedThaw, fun hd => ?thaws⟩⟩⟩⟩
  case badFreeze => rw [exec_freeze_of_attending ha, takeFreeze, freezeTests_of_bad_argument _ h]; rfl
  case modeFreeze => rw [exec_freeze_of_attending ha, takeFreeze, freezeTests_of_mode _ h hm]; rfl
  case undefinedFreeze => rw [exec_freeze_of_attending ha, takeFreeze, freezeTests_of_undefined _ h hi he hp hd]; rfl
  case setting => rw [exec_freeze_of_attending ha, takeFreeze, freezeTests_taken _ h hi he hp hd, if_pos hz]; rfl
  case badThaw => rw [exec_thaw_of_attending ha, takeThaw, freezeTests_of_bad_argument _ h]; rfl
  case modeThaw => rw [exec_thaw_of_attending ha, takeThaw, freezeTests_of_mode _ h hm]; rfl
  case undefinedThaw => rw [exec_thaw_of_attending ha, takeThaw, freezeTests_of_undefined _ h hi he hp hd]; rfl
  case freezes =>
    rw [exec_freeze_of_attending ha, takeFreeze, freezeTests_taken _ h hi he hp hd, if_neg hz]
    have hw : (freezeWindow n s).win = setFreezeState s.win n (freezeTo s.ctl.mode (s.win[n]).freeze) := by rw [freezeWindow_eq]; rfl
    refine ⟨freezeWindow n s, rfl, fun hc => congrArg Host.Outcome.next ?_, ?_, fun m => ?_, ?_, ?_, ?_⟩
    · rw [ackReply_reroute_of_idle (by rw [freezeWindow_eq]; exact hc), freezeWindow_eq]; rfl
    · rw [hw, setFreezeState_at]; rfl
    · rw [hw, setFreezeState_at, setFreezeState_each]
    · rw [freezeWindow_eq]; rfl
    · rw [freezeWindow_eq]; exact .of_follow s.freeze _ _
    · rw [freezeWindow_eq]; rfl
  case thaws =>
    rw [exec_thaw_of_attending ha, takeThaw, freezeTests_taken _ h hi he hp hd]
    refine ⟨thawWindow n s, rfl, fun hc => congrArg Host.Outcome.next ?_, ?_, fun m => ?_, ?_, ?_, fun hm hz hf => ?_, fun hx => ?_,
      thawWindow_rest n s, thawWindow_access n s⟩
    · have hc' : (thawWindow n s).cp = .idle := by simpa using hc
      have hmg : (thawWindow n s).mg = s.mg := by simp
      rw [ackReply_reroute_of_idle hc', hmg]
    · rw [thawWindow_win, setFreezeState_at]; rfl
    · rw [thawWindow_win, setFreezeState_at, setFreezeState_each]
    · rw [thawWindow_freeze]; rfl
    · rw [thawWindow_freeze, thawWindow_win]; exact .of_follow s.freeze _ _
    · have hh := thawWindow_handedOver hm hz hf
      refine ⟨?_, ?_, hh⟩ <;> rw [hh.1] <;> split <;> simp [*]
    · rw [thawWindow_of_no_fill hx]; rfl

end Sys2Proof.Machine
end

section
/-! PROOF. The window commands and their completions (R6 to R9, Table 1-2). -/

namespace Sys2Proof.Machine
/-! ## COMMIT WINDOW and DROP WINDOW taken -/

theorem exec_windowCommands_of_attending {s : State} (h : Attending s) (argument : Word) :
    exec (.commitWindow argument) s = .next (takeWindowCommand argument .commitWindow s) ∧
      exec (.dropWindow argument) s = .next (takeWindowCommand argument .dropWindow s) :=
  ⟨congrArg Host.Outcome.next (guarded_of_attending h (takeWindowCommand argument .commitWindow)),
    congrArg Host.Outcome.next (guarded_of_attending h (takeWindowCommand argument .dropWindow))⟩

section
variable {v : Word} {n : WinIdx} {s : State} (c : WinIdx → InFlight)

theorem takeWindowCommand_of_bad_argument (h : 15 < v.toNat) : takeWindowCommand v c s = refuse .argument s := by
  rw [takeWindowCommand, windowArg_eq_none h]

theorem takeWindowCommand_of_window (h : v.toNat = n.val) : takeWindowCommand v c s = if s.ctl.mode ≠ .idle then refuse .mode s
    else if s.mg.locked then refuse .locked s else answer .accepted 0 (takeInFlight (c n) s) := by
  rw [takeWindowCommand, windowArg_eq_some h]

end

theorem exec_dropWindowComplete {s : State} {n : WinIdx} (h : s.mg.command = some (.dropWindow n)) :
    exec .dropWindowComplete s = .next (complete .ok (dropDefined n s)) := by
  change execDropWindowComplete s = _
  rw [execDropWindowComplete, h]

/-- DROP WINDOW changes the table and the marks alone. -/
theorem dropDefined_eq (n : WinIdx) (s : State) :
    dropDefined n s = (s.setWin (dropDefined n s).win).setImage (dropDefined n s).image := by
  unfold dropDefined
  dsimp only
  split <;> rfl

theorem dropDefined_byte (n : WinIdx) (s : State) (a : Nat) : (dropDefined n s).image.byte a = s.image.byte a := by
  unfold dropDefined
  dsimp only
  split <;> rfl

/-- Settles O31: the tests the two window commands share, and the window that a drop leaves undefined. -/
theorem dropWindowResult : Obligations.DropWindowResult := by
  refine ⟨fun argument s ha => ?_, fun n s hc => ?_⟩
  · obtain ⟨hcommit, hdrop⟩ := exec_windowCommands_of_attending ha argument
    rw [hcommit, hdrop]
    refine ⟨fun h => ⟨?_, ?_⟩, fun n h => ⟨fun hm => ⟨?_, ?_⟩, fun hm hl => ⟨?_, ?_⟩, fun hm hl => ⟨?_, ?_⟩⟩⟩
    · rw [takeWindowCommand_of_bad_argument _ h]; rfl
    · rw [takeWindowCommand_of_bad_argument _ h]; rfl
    all_goals rw [takeWindowCommand_of_window _ h]
    · rw [if_pos hm]; rfl
    · rw [if_pos hm]; rfl
    all_goals rw [if_neg (not_not.2 hm)]
    · rw [if_pos hl]; rfl
    · rw [if_pos hl]; rfl
    all_goals rw [hl]
    · rfl
    · rfl
  · have hmg : (dropDefined n s).mg = s.mg := by rw [dropDefined_eq]; rfl
    refine ⟨_, exec_dropWindowComplete hc, ?_, fun m => dropDefined_win n m s, fun hw w => dropDefined_marksAt hw n w,
      fun a => dropDefined_byte n s a, ?_⟩
    · change { (dropDefined n s).mg with command := none, done := true, lastResult := { (dropDefined n s).mg.lastResult with result := .ok } } = _
      rw [hmg]
    · conv_lhs => rw [complete, dropDefined_eq]
      simp [complete]

/-! ## The checks of COMMIT WINDOW (Table 1-2) -/

theorem rangeOk_iff (f : Fields) : rangeOk f = true ↔
    1 ≤ f.length.toNat ∧ f.length.toNat ≤ 256 ∧ f.base.toNat + f.length.toNat ≤ 4194304 := by
  simp only [rangeOk, Bool.and_eq_true, decide_eq_true_eq, and_assoc]
  rfl

theorem markOk_iff (f : Fields) (mark marker : BusMark) : markOk f mark marker = true ↔
    f.covers mark.addr = false ∧ (marker.enabled = true → f.covers marker.addr = false) := by
  cases h : marker.enabled <;> simp [markOk, h]

theorem forall_otherRecords (ws : Windows) (n : WinIdx) (p : Fields → Prop) :
    (∀ g ∈ otherRecords ws n, p g) ↔ ∀ m : WinIdx, m ≠ n → (ws[m]).defined = true → p (ws[m]).record :=
  ⟨fun h m hm hd => h _ (mem_otherRecords.2 ⟨m, hm, hd, rfl⟩), fun h g hg => by
    obtain ⟨m, hm, hd, rfl⟩ := mem_otherRecords.1 hg
    exact h m hm hd⟩

/-- Two ranges stand apart: one ends at or below where the other begins. -/
def RangesApart (a la b lb : Nat) : Prop := a + la ≤ b ∨ b + lb ≤ a

theorem sharesWord_eq_false_iff_apart (a la b lb : Nat) : sharesWord (a, la) (b, lb) = false ↔ RangesApart a la b lb :=
  (sharesWord_eq_false_iff _ _).trans or_comm

theorem overlapOk_iff (f : Fields) (l : List Fields) : overlapOk f l = true ↔
    ∀ g ∈ l, RangesApart f.base.toNat f.length.toNat g.base.toNat g.length.toNat := by
  simp only [overlapOk, List.all_eq_true, Bool.not_eq_true', ← sharesWord_eq_false_iff_apart]
  rfl

/-- The store word at which a slice of the window begins (1.2). -/
def SliceBegins (f : Fields) (b : Nat) : Prop :=
  b = f.imageBase.toNat ∨ (f.kind = .output ∧ f.policy = .pattern ∧ b = f.safeBase.toNat)

theorem hasSafe_iff (f : Fields) : f.hasSafe = true ↔ f.kind = .output ∧ f.policy = .pattern := by
  simp [Fields.hasSafe]

theorem forall_slices (f : Fields) (p : Nat × Nat → Prop) :
    (∀ x ∈ f.slices, p x) ↔ ∀ b, SliceBegins f b → p (b, f.length.toNat) := by
  have hs := hasSafe_iff f
  unfold Fields.slices SliceBegins
  by_cases h : f.hasSafe = true
  · obtain ⟨hk, hp⟩ := hs.1 h
    simp [h, hk, hp, Fields.imageSlice, Fields.safeSlice]
  · have hn : ∀ b, ¬(f.kind = .output ∧ f.policy = .pattern ∧ b = f.safeBase.toNat) := fun b hb => h (hs.2 ⟨hb.1, hb.2.1⟩)
    simp [h, hn, Fields.imageSlice]

theorem slicesOk_iff (f : Fields) (l : List Fields) : slicesOk f l = true ↔
    (∀ b, SliceBegins f b → b + f.length.toNat ≤ 1024) ∧
      (f.kind = .output → f.policy = .pattern → RangesApart f.imageBase.toNat f.length.toNat f.safeBase.toNat f.length.toNat) ∧
      ∀ g ∈ l, ∀ b c, SliceBegins f b → SliceBegins g c → RangesApart b f.length.toNat c g.length.toNat := by
  have hown : (!(f.hasSafe && sharesWord f.imageSlice f.safeSlice)) = true ↔
      (f.kind = .output → f.policy = .pattern → RangesApart f.imageBase.toNat f.length.toNat f.safeBase.toNat f.length.toNat) := by
    rw [← sharesWord_eq_false_iff_apart, ← and_imp, ← hasSafe_iff]
    cases f.hasSafe <;> simp [Fields.imageSlice, Fields.safeSlice]
  have hothers : (∀ g ∈ l, (f.slices.all fun a => g.slices.all fun b => !sharesWord a b) = true) ↔
      ∀ g ∈ l, ∀ b c, SliceBegins f b → SliceBegins g c → RangesApart b f.length.toNat c g.length.toNat := by
    refine forall₂_congr fun g _ => ?_
    simp only [List.all_eq_true, forall_slices, Bool.not_eq_true', sharesWord_eq_false_iff_apart]
    exact forall_congr' fun b => ⟨fun h c hb => h hb c, fun h hb c => h c hb⟩
  simp only [slicesOk, Bool.and_eq_true, hown, List.all_eq_true, and_assoc] at hothers ⊢
  rw [hothers, forall_slices]
  simp only [sliceFits, decide_eq_true_eq]
  rfl

theorem exec_commitWindowComplete {s : State} {n : WinIdx} (h : s.mg.command = some (.commitWindow n)) :
    exec .commitWindowComplete s = .next (if commitCheck s n = .ok then complete .ok (installWindow n s)
      else complete (commitCheck s n) (putWindow n { s.win[n] with descriptor := (s.win[n]).record } s)) := by
  change execCommitWindowComplete s = _
  rw [execCommitWindowComplete, h]

/-- Settles O32: the window installed or its descriptor reloaded, by the first of the four checks that fails. -/
theorem commitWindowCompletes : Obligations.CommitWindowCompletes := by
  refine ⟨fun n s hc => ?_, fun n s => ?_⟩
  · rw [exec_commitWindowComplete hc]
    refine ⟨fun hk => ?_, fun hk => ?_⟩
    · rw [if_pos hk]
      refine ⟨_, rfl, rfl, fun m => installWindow_win n m s, fun hw w => installWindow_marksAt hw n w, fun a => rfl, rfl⟩
    · rw [if_neg hk]
      rfl
  · intro f others apart range overlap mark slice slices
    have hrange : rangeOk f = true ↔ range := rangeOk_iff f
    have hoverlap : overlapOk f (otherRecords s.win n) = true ↔ overlap := (overlapOk_iff f _).trans (forall_otherRecords s.win n _)
    have hmark : markOk f s.mark s.marker = true ↔ mark := markOk_iff f s.mark s.marker
    have hslices : slicesOk f (otherRecords s.win n) = true ↔ slices :=
      (slicesOk_iff f _).trans (and_congr_right' (and_congr_right' (forall_otherRecords s.win n _)))
    have hcheck : commitCheck s n = if !rangeOk f then .range else if !overlapOk f (otherRecords s.win n) then .overlap
      else if !markOk f s.mark s.marker then .mark else if !slicesOk f (otherRecords s.win n) then .slice else .ok := rfl
    rw [hcheck, ← hrange, ← hoverlap, ← hmark, ← hslices]
    cases rangeOk f <;> cases overlapOk f (otherRecords s.win n) <;> cases markOk f s.mark s.marker <;>
      cases slicesOk f (otherRecords s.win n) <;> simp


end Sys2Proof.Machine
end

section
/-! PROOF. The writes of the items, taken and refused (R5, R10, R48, R69, R71, R116, R125 to R130, R133, R143, R156 to R159, R171). -/

namespace Sys2Proof.Machine

/-- A write that is taken is its own rule: no command is in flight and the frame is the bridge's. -/
theorem exec_of_guarded {c : Instr} {body : State → State} {s : State} (h : exec c s = .next (guarded body s)) (ha : Attending s) :
    exec c s = .next (body s) := h.trans (congrArg Host.Outcome.next (guarded_of_attending ha body))

/-! ## A clear of causes by the host (R125, R126) -/

/-- Whether the host can clear the cause: an event cause, or a level cause with a qualifying time above 0. -/
def CauseUnit.clearable (u : CauseUnit) : Cause → Bool
  | .chain => decide (u.chain.time ≠ 0)
  | .stageLow => decide (u.stageLow.time ≠ 0)
  | _ => true

/-- The causes that `p` names have been cleared, where the host can clear them, and nothing else of the unit has changed. -/
structure HostCleared (p : Cause → Bool) (u t : CauseUnit) : Prop where
  flag : ∀ d, t.flag d = (u.flag d && !(p d && u.clearable d))
  level : ∀ c : LevelCause, t.level c = if p c.cause = true ∧ (u.level c).time ≠ 0 then { u.level c with timer := 0 } else u.level c
  rest : t = { u with flags := t.flags, chain := t.chain, stageLow := t.stageLow }

theorem HostCleared.none (u : CauseUnit) : HostCleared (fun _ => false) u u where
  flag d := by simp
  level c := by simp
  rest := rfl

theorem HostCleared.time {p : Cause → Bool} {u t : CauseUnit} (h : HostCleared p u t) (c : LevelCause) :
    (t.level c).time = (u.level c).time := by
  rw [h.level]
  split <;> rfl

theorem HostCleared.clearable {p : Cause → Bool} {u t : CauseUnit} (h : HostCleared p u t) (d : Cause) :
    t.clearable d = u.clearable d := by
  have hc : t.chain.time = u.chain.time := h.time .chain
  have hl : t.stageLow.time = u.stageLow.time := h.time .stageLow
  cases d <;> simp only [CauseUnit.clearable, hc, hl]

theorem HostCleared.trans {p q : Cause → Bool} {u t w : CauseUnit} (h : HostCleared p u t) (h' : HostCleared q t w) :
    HostCleared (fun d => p d || q d) u w where
  flag d := by
    rw [h'.flag, h.flag, h.clearable]
    cases p d <;> cases q d <;> cases u.clearable d <;> simp
  level c := by
    rw [h'.level, h.time, h.level]
    grind
  rest := by
    rw [h'.rest, h.rest]

/-- The clear of an event cause. -/
theorem HostCleared.clearFlag (u : CauseUnit) {d : Cause} (hc : d ≠ .chain) (hl : d ≠ .stageLow) :
    HostCleared (fun e => decide (e = d)) u (u.clearFlag d) where
  flag e := by
    rw [CauseUnit.flag_clearFlag]
    by_cases he : e = d
    · subst he
      cases e <;> simp_all [CauseUnit.clearable]
    · simp [he, Ne.symm he]
  level e := by
    have he : e.cause ≠ d := by cases e <;> simp [LevelCause.cause, hc.symm, hl.symm]
    rw [if_neg (by simp [he])]
    cases e <;> rfl
  rest := rfl

theorem CauseUnit.hostClear_level (u : CauseUnit) (c : LevelCause) : u.hostClear c.cause =
    if (u.level c).time = 0 then u else (u.clearFlag c.cause).setLevel c { u.level c with timer := 0 } := by
  cases c <;> rfl

theorem CauseUnit.clearable_level (u : CauseUnit) (c : LevelCause) : u.clearable c.cause = decide ((u.level c).time ≠ 0) := by
  cases c <;> rfl

theorem CauseUnit.setLevel_flag (u : CauseUnit) (c : LevelCause) (l : Level) (d : Cause) : (u.setLevel c l).flag d = u.flag d := by
  cases c <;> rfl

theorem CauseUnit.setLevel_clearFlag_level (u : CauseUnit) (c d : LevelCause) (e : Cause) (l : Level) :
    ((u.clearFlag e).setLevel c l).level d = if d = c then l else u.level d := by
  cases c <;> cases d <;> rfl

/-- The clear of a level cause: with qualifying time 0 it has no effect (R126). -/
theorem HostCleared.level_cause (u : CauseUnit) (c : LevelCause) : HostCleared (fun e => decide (e = c.cause)) u (u.hostClear c.cause) := by
  have hinj : ∀ d : LevelCause, d.cause = c.cause ↔ d = c := fun d => by cases c <;> cases d <;> simp [LevelCause.cause]
  rw [CauseUnit.hostClear_level]
  by_cases hz : (u.level c).time = 0
  · rw [if_pos hz]
    refine ⟨fun d => ?_, fun d => (if_neg fun h => ?_).symm, rfl⟩
    · by_cases hd : d = c.cause
      · rw [hd, CauseUnit.clearable_level, hz]
        simp
      · simp [hd]
    · rw [decide_eq_true_eq, hinj] at h
      exact h.2 (h.1 ▸ hz)
  · rw [if_neg hz]
    refine ⟨fun d => ?_, fun d => ?_, by cases c <;> rfl⟩
    · rw [CauseUnit.setLevel_flag, CauseUnit.flag_clearFlag]
      by_cases hd : d = c.cause
      · rw [hd, CauseUnit.clearable_level, decide_eq_true hz]
        simp
      · simp [hd, Ne.symm hd]
    · rw [CauseUnit.setLevel_clearFlag_level]
      by_cases hd : d = c
      · subst hd
        rw [if_pos rfl, if_pos ⟨decide_eq_true rfl, hz⟩]
      · rw [if_neg hd, if_neg (by simp [hinj, hd])]

theorem CauseUnit.hostClear_cleared (u : CauseUnit) (c : Cause) : HostCleared (fun d => decide (d = c)) u (u.hostClear c) := by
  cases c
  case chain => exact .level_cause u .chain
  case stageLow => exact .level_cause u .stageLow
  all_goals exact .clearFlag u (by simp) (by simp)

theorem CauseUnit.hostWrite_cleared (u : CauseUnit) (v : Word) : HostCleared (fun d => v.getLsbD d.num) u (u.hostWrite v) := by
  have step : ∀ (l : List Cause) (u : CauseUnit),
      HostCleared (fun d => decide (d ∈ l) && v.getLsbD d.num) u (l.foldl (fun u c => if v.getLsbD c.num then u.hostClear c else u) u) := by
    intro l
    induction l with
    | nil => exact fun u => by simpa using HostCleared.none u
    | cons c l ih =>
      intro u
      have here : HostCleared (fun d => decide (d = c) && v.getLsbD c.num) u (if v.getLsbD c.num then u.hostClear c else u) := by
        cases v.getLsbD c.num
        · simpa using HostCleared.none u
        · simpa using u.hostClear_cleared c
      have both := here.trans (ih _)
      have hp : (fun d => decide (d ∈ c :: l) && v.getLsbD d.num) =
          fun d => (decide (d = c) && v.getLsbD c.num) || (decide (d ∈ l) && v.getLsbD d.num) := by
        funext d
        by_cases hd : d = c
        · subst hd
          cases v.getLsbD d.num <;> simp
        · simp [hd]
      rw [hp]
      exact both
  have whole := step allCauses u
  simp only [mem_allCauses, decide_true, Bool.true_and] at whole
  exact whole
/-- Settles O33: the three writes that neither the lock nor a value refuses, and what a clear of causes leaves. -/
theorem unlockedWritesTaken : Obligations.UnlockedWritesTaken := by
  refine ⟨fun v s ha => ⟨exec_of_guarded (body := putCauses v) rfl ha,
    exec_of_guarded (body := putForce v) rfl ha, exec_of_guarded (body := takeClearLongest) rfl ha⟩, fun v u => ?_⟩
  have h := u.hostWrite_cleared v
  refine ⟨fun c hc hl => ?_, fun c => ⟨fun hv hz => ⟨?_, ?_⟩, fun hx => ⟨?_, ?_⟩⟩, h.rest⟩
  · have hclear : u.clearable c = true := by cases c <;> simp_all [CauseUnit.clearable]
    rw [h.flag, hclear, Bool.and_true]
  · rw [h.flag, CauseUnit.clearable_level, hv, decide_eq_true hz, Bool.and_self, Bool.not_true, Bool.and_false]
  · rw [h.level, if_pos ⟨hv, hz⟩]
  · have hkept : (v.getLsbD c.cause.num && u.clearable c.cause) = false := by
      rw [CauseUnit.clearable_level]
      rcases hx with hx | hx <;> rw [hx]
      · rfl
      · exact Bool.and_false _
    rw [h.flag, hkept, Bool.not_false, Bool.and_true]
  · refine (h.level c).trans (if_neg fun hy => ?_)
    rcases hx with hx | hx
    · exact Bool.false_ne_true (hx.symm.trans hy.1)
    · exact hy.2 hx

/-! ## The window descriptors and the mark addresses (R5, R10) -/

theorem findWin_isSome_iff (ws : Windows) (a : Addr) : (findWin ws a).isSome = true ↔ ∃ n : WinIdx, (ws[n]).covers a = true := by
  simp [findWin, List.find?_isSome, mem_allWin]

theorem policy_ofCode (v : Word) : Policy.ofCode (v.extractLsb' 25 2) = if v[26] then .pattern else if v[25] then .zero else .hold := by
  have h0 : (v.extractLsb' 25 2)[0] = v[25] := by simp
  have h1 : (v.extractLsb' 25 2)[1] = v[26] := by simp
  rw [← h0, ← h1]
  generalize v.extractLsb' 25 2 = x
  revert x
  decide

/-- Settles O34: the descriptors and the two mark addresses, by their tests. -/
theorem windowItemsWritten : Obligations.WindowItemsWritten := by
  refine ⟨fun n v s ha => ⟨fun hl part => ?locked, fun hl => ⟨?a, ?b⟩⟩, fun v s ha => ?_⟩
  case locked => rw [exec_of_guarded (body := putDescriptor n part v) rfl ha, putDescriptor, if_pos hl]; rfl
  case a =>
    rw [exec_of_guarded (body := putDescriptor n .a v) rfl ha, putDescriptor, hl, if_neg Bool.false_ne_true, ← policy_ofCode]
    rfl
  case b => rw [exec_of_guarded (body := putDescriptor n .b v) rfl ha, putDescriptor, hl, if_neg Bool.false_ne_true]; rfl
  intro m inWindow both
  have hmark : exec (.markAddressWrite v) s = .next (putMark v s) := exec_of_guarded rfl ha
  have hmarker : exec (.markerAddressWrite v) s = .next (putMarker v s) := exec_of_guarded rfl ha
  have hin : (findWin s.win (BusMark.ofWord v).addr).isSome = true ↔ inWindow := findWin_isSome_iff s.win _
  refine ⟨fun hm => ⟨?_, ?_⟩, fun hm hl => ⟨?_, ?_⟩, fun hm hl => ?_⟩
  · rw [hmark, putMark, if_pos hm]; rfl
  · rw [hmarker, putMarker, if_pos hm]; rfl
  · rw [hmark, putMark, if_neg (not_not.2 hm), if_pos hl]; rfl
  · rw [hmarker, putMarker, if_neg (not_not.2 hm), if_pos hl]; rfl
  rw [hmark, hmarker, putMark, putMarker, if_neg (not_not.2 hm), if_neg (not_not.2 hm), hl, if_neg Bool.false_ne_true,
    if_neg Bool.false_ne_true]
  refine ⟨fun hw => ?_, fun hw => ?_, fun hw he => ?_, fun hw => ?_⟩
  · rw [if_pos (hin.2 hw)]; rfl
  · rw [if_neg (mt hin.1 hw)]; rfl
  · rw [if_pos ⟨he, hin.2 hw⟩]; rfl
  · have hn : ¬((BusMark.ofWord v).enabled = true ∧ (findWin s.win (BusMark.ofWord v).addr).isSome = true) := fun h =>
      hw.elim (fun hw => hw (hin.1 h.2)) fun he => Bool.false_ne_true (he.symm.trans h.1)
    rw [if_neg hn]; rfl

/-! ## The writes with a range, the lock and the image data (R69, R71, R116, R157, R171) -/

theorem isPrescale_iff (v : Word) : isPrescale v = true ↔ ∃ k : Fin 8, v.toNat = 2 ^ k.val := by
  have hpow : [1, 2, 4, 8, 16, 32, 64, 128] = List.ofFn fun k : Fin 8 => 2 ^ k.val := by decide
  rw [isPrescale, decide_eq_true_eq, hpow, List.mem_ofFn]
  exact exists_congr fun k => eq_comm

/-- Settles O35: the two ranged writes, and the writes of the freeze timer, the lock and the image data by their tests. -/
theorem rangedAndLinkWritesTaken : Obligations.RangedAndLinkWritesTaken := by
  refine ⟨fun v s ha => ?_, fun v s ha => ?_⟩
  · rw [exec_of_guarded (body := putPrescale v) rfl ha, exec_of_guarded (body := putPointer v) rfl ha, putPrescale, putPointer,
      ← isPrescale_iff]
    refine ⟨fun h => ?_, fun h => ?_, fun h => ?_, fun h => ?_⟩
    · rw [if_pos h]; rfl
    · rw [if_neg h]; rfl
    · rw [if_neg (Nat.not_lt.2 h)]; rfl
    · rw [if_pos h]; rfl
  · rw [exec_of_guarded (body := putFreezeTimer v) rfl ha, exec_of_guarded (body := putLock v) rfl ha,
      exec_of_guarded (body := putImageData v) rfl ha, putFreezeTimer, putLock, putImageData]
    refine ⟨fun hl => ?_, fun hl => ?_, fun hm => ?_, fun hm hl => ?_, fun hm hl => ?_⟩
    · rw [if_pos hl, if_pos hl]; exact ⟨rfl, rfl⟩
    · rw [hl, if_neg Bool.false_ne_true, if_neg Bool.false_ne_true]
      refine ⟨rfl, fun hv => ?_, fun hv => ?_⟩
      · rw [if_pos hv]; rfl
      · rw [if_neg hv]; rfl
    · rw [if_pos hm]; rfl
    · rw [if_neg (not_not.2 hm), if_pos hl]; rfl
    · rw [if_neg (not_not.2 hm), hl, if_neg Bool.false_ne_true]
      refine ⟨_, rfl, rfl, fun hw w k => ?_, rfl⟩
      have hall : ∀ k : Fin 4, allLanes[k] = true := by decide
      exact (Store.byte_writeLanes hw _ _ _ _ _).trans (if_congr (and_iff_left (hall k)) rfl rfl)

/-! ## The writes that the lock refuses (R48, R127, R130, R143, R159, log 5) -/

theorem LockTested.of_lockedWrite {c : Instr} {number : Byte} {bad : Bool} {Bad : Prop} {r : Reason} {good : State → State} {s g : State}
    (h : exec c s = .next (lockedWrite number bad r good s)) (hg : good s = g) (hb : bad = true ↔ Bad) : LockTested c Bad r g s := by
  rw [LockTested, h, ← hb, ← hg, lockedWrite]
  refine ⟨fun hl hv => ?_, fun hl hv => ?_, fun hl hv => ?_, fun hl hv => ?_⟩
  · rw [hl, if_neg Bool.false_ne_true, if_neg hv]
  · rw [hl, if_neg Bool.false_ne_true, if_pos hv]; rfl
  · rw [if_pos hl, if_neg hv]; rfl
  · rw [if_pos hl, if_pos hv]
    by_cases hf : Config.lockTestFirst number = true
    · rw [if_pos hf]; exact .inl rfl
    · rw [if_neg hf]; exact .inr rfl

/-- Settles O36: each write by the tests it shares with the others. -/
theorem lockedWritesTaken : Obligations.LockedWritesTaken := by
  intro v s ha
  refine ⟨.of_lockedWrite (exec_of_guarded rfl ha) rfl ?_, .of_lockedWrite (exec_of_guarded rfl ha) rfl ?_,
    .of_lockedWrite (exec_of_guarded rfl ha) rfl ?_, .of_lockedWrite (exec_of_guarded rfl ha) rfl ?_,
    .of_lockedWrite (exec_of_guarded rfl ha) rfl ?_⟩
  · rw [Bool.or_eq_true, decide_eq_true_eq, decide_eq_true_eq]
  · exact decide_eq_true_iff
  · rw [Bool.or_eq_true]; rfl
  · exact decide_eq_true_iff
  · exact decide_eq_true_iff


end Sys2Proof.Machine
end

section
/-! PROOF. The qualifying times, the priority list, and the requests by number and code (R124, R129, R166, Tables 11-3 and 11-4). -/

namespace Sys2Proof.Machine
/-! ## The qualifying times (R124) -/

section
variable {c : LevelCause} {time : BitVec 8} {s : State}

/-- A taken time above 0 that is not the one in force: the timer goes on up to the new limit, and the cause latches where it qualifies and
has counted as much. -/
theorem qualifyTaken_of_time (hs : time ≠ (s.causes.level c).time) (hz : time ≠ 0) : qualifyTaken c time s =
    let t := s.setCauses (s.causes.setLevel c ⟨time, min (s.causes.level c).timer (time.toNat * 8000)⟩)
    if (s.causes.level c).time ≠ 0 ∧ qualifying c s ∧ time.toNat * 8000 ≤ (s.causes.level c).timer then latch c.cause t else t := by
  rw [qualifyTaken, if_neg hs, if_neg hz]
  rfl

theorem qualifyTaken_of_same (hs : time = (s.causes.level c).time) : qualifyTaken c time s = s := if_pos hs

theorem qualifyTaken_of_zero (hs : time ≠ (s.causes.level c).time) (hz : time = 0) :
    qualifyTaken c time s = followLevel c (s.setCauses (s.causes.setLevel c ⟨0, 0⟩)) := by
  rw [qualifyTaken, if_neg hs, if_pos hz]

end

/-! ## The priority list (R129) -/

theorem Cause.ofNum_num (c : Cause) : Cause.ofNum c.num = some c := by cases c <;> rfl

theorem Cause.exists_num {x : Nat} (h : x < 10) : ∃ c, Cause.num c = x ∧ Cause.ofNum x = some c := by
  have all : ∀ x < 10, ∃ c ∈ allCauses, Cause.num c = x ∧ Cause.ofNum x = some c := by decide
  obtain ⟨c, -, hc⟩ := all x h
  exact ⟨c, hc⟩

theorem filterMap_ofNum_map_num (l : List Cause) : (l.map Cause.num).filterMap Cause.ofNum = l := by
  rw [List.filterMap_map]
  exact (List.filterMap_congr fun c _ => c.ofNum_num).trans List.filterMap_some

theorem exists_map_num {l : List Nat} (h : ∀ x ∈ l, x < 10) : ∃ cs : List Cause, cs.map Cause.num = l := by
  induction l with
  | nil => exact ⟨[], rfl⟩
  | cons x l ih =>
    obtain ⟨cs, hcs⟩ := ih fun y hy => h y (List.mem_cons_of_mem x hy)
    obtain ⟨c, hc, -⟩ := Cause.exists_num (h x List.mem_cons_self)
    exact ⟨c :: cs, by rw [List.map_cons, hc, hcs]⟩

/-- Ten numbers among which every cause number stands are the cause numbers in some order. -/
theorem perm_range_of_all {l : List Nat} (hl : l.length = 10) (h : ∀ c ∈ allCauses, c.num ∈ l) : (List.range 10).Perm l := by
  have hsub : List.range 10 ⊆ l := fun x hx => by
    obtain ⟨c, hc, -⟩ := Cause.exists_num (List.mem_range.1 hx)
    exact hc ▸ h c (mem_allCauses c)
  exact (List.subperm_of_subset List.nodup_range hsub).perm_of_length_le (by rw [hl, List.length_range])

theorem priorityOf_eq_some_iff {l : List Nat} (hl : l.length = 10) (cs : List Cause) :
    priorityOf l = some cs ↔ cs.map Cause.num = l ∧ cs.Nodup := by
  unfold priorityOf
  constructor
  · intro h
    split at h
    · rename_i hx
      have hp := perm_range_of_all hl hx.2
      obtain ⟨ds, hds⟩ := exists_map_num fun x hx => List.mem_range.1 (hp.mem_iff.2 hx)
      rw [← hds, filterMap_ofNum_map_num] at h
      cases h
      exact ⟨hds, List.Nodup.of_map _ (hds ▸ hp.nodup_iff.1 List.nodup_range)⟩
    · cases h
  · rintro ⟨hm, hn⟩
    have hall : ∀ c ∈ allCauses, c.num ∈ l := fun c hc => by
      have hlen : allCauses.length ≤ cs.length := by
        rw [← List.length_map (as := cs) Cause.num, hm, hl]
        decide
      have hp : cs.Perm allCauses := (List.subperm_of_subset hn fun d _ => mem_allCauses d).perm_of_length_le hlen
      exact hm ▸ List.mem_map_of_mem (hp.mem_iff.2 hc)
    rw [if_pos ⟨hl, hall⟩, ← hm, filterMap_ofNum_map_num]

/-- The four-bit number at place `k` of a word. -/
def digit (w : Word) (k : Nat) : Nat := (w >>> (4 * k)).toNat % 16

theorem nibbles_eq (w : Word) (n : Nat) : nibbles w n = (List.range n).map (digit w) :=
  List.map_congr_left fun k _ => by simp [digit]

/-- The ten positions that a write of PRIORITY LIST B forms. -/
theorem priorityFrom_eq (u : CauseUnit) (v : Word) : priorityFrom u v = priorityOf
    ((List.range 8).map (digit (u.pendingFirst.getD (layoutPriorityA u.priority))) ++ (List.range 2).map (digit v)) := by
  rw [priorityFrom, nibbles_eq, nibbles_eq]

theorem putPriorityB_of_some {v : Word} {s : State} {l : List Cause} (h : priorityFrom s.causes v = some l) :
    putPriorityB v s = lockedWrite 0x0D false .argument
      (fun s' => ackReply (s'.setCauses { s.causes with pendingFirst := none, priority := l })) s := by
  rw [putPriorityB, h]

theorem putPriorityB_of_none {v : Word} {s : State} (h : priorityFrom s.causes v = none) : putPriorityB v s =
    if s.mg.locked ∧ Config.lockTestFirst 0x0D then refuse .locked s
    else refuse .argument (s.setCauses { s.causes with pendingFirst := none }) := by
  rw [putPriorityB, h]

/-- Settles O37: the qualifying times by the timer and the condition, and the priority list by what its ten positions form. -/
theorem qualifyAndPriorityWritten : Obligations.QualifyAndPriorityWritten := by
  refine ⟨fun c v s ha => ?_, fun v s ha => ?_⟩
  · intro l time with'
    have hexec : exec (.qualifyWrite c v) s = .next (lockedWrite (qualifyNumber c) (decide (255 < v.toNat)) .range
        (fun s => ackReply (qualifyTaken c time s)) s) := exec_of_guarded (body := putQualify c v) rfl ha
    refine ⟨fun hs => ?_, fun hs hz => ?_, fun hs hz ht hc hf hle => ?_, fun hs hz hx hle => ?_, fun hs hz hlt => ?_⟩ <;>
      refine .of_lockedWrite hexec (congrArg ackReply ?_) decide_eq_true_iff
    · exact qualifyTaken_of_same hs
    · exact qualifyTaken_of_zero hs hz
    · have hq := (qualifying_iff c s).2 ⟨ht, hc, hf⟩
      rw [qualifyTaken_of_time hs hz]
      dsimp only
      rw [if_pos ⟨ht, hq, hle⟩, Nat.min_eq_right hle]
    · rw [qualifyTaken_of_time hs hz]
      dsimp only
      rw [if_neg, Nat.min_eq_right hle]
      rintro ⟨ht, hq, -⟩
      obtain ⟨-, hc, hf⟩ := (qualifying_iff c s).1 hq
      rcases hx with hx | hx | hx
      · exact ht hx
      · exact Bool.false_ne_true (hx.symm.trans hc)
      · exact Bool.false_ne_true (hf.symm.trans hx)
    · rw [qualifyTaken_of_time hs hz]
      dsimp only
      rw [if_neg fun h => absurd h.2.2 (Nat.not_le.2 hlt), Nat.min_eq_left hlt.le]
  · intro digit' a numbers
    have hfrom : ∀ l, priorityFrom s.causes v = some l ↔ l.map Cause.num = numbers ∧ l.Nodup := fun l => by
      rw [priorityFrom_eq]
      exact priorityOf_eq_some_iff rfl l
    have hnone : (¬∃ l : List Cause, l.map Cause.num = numbers ∧ l.Nodup) → priorityFrom s.causes v = none := fun h =>
      Option.eq_none_iff_forall_ne_some.2 fun l hl => h ⟨l, (hfrom l).1 hl⟩
    rw [exec_of_guarded (body := putPriorityA v) rfl ha, exec_of_guarded (body := putPriorityB v) rfl ha, putPriorityA]
    refine ⟨fun hl => ?_, fun hl => ?_, fun hl l hm hn => ?_, fun hl hx => ?_, fun hl ⟨l, hm, hn⟩ => ?_, fun hl hx => ?_⟩
    · rw [if_pos hl]; rfl
    · rw [hl]; rfl
    · rw [putPriorityB_of_some ((hfrom l).2 ⟨hm, hn⟩), lockedWrite, hl]; rfl
    · rw [putPriorityB_of_none (hnone hx), hl, if_neg fun h => Bool.false_ne_true h.1]; rfl
    · rw [putPriorityB_of_some ((hfrom l).2 ⟨hm, hn⟩), lockedWrite, if_pos hl]; rfl
    · rw [putPriorityB_of_none (hnone hx)]
      by_cases hf : s.mg.locked = true ∧ Config.lockTestFirst 0x0D = true
      · rw [if_pos hf]; exact .inl rfl
      · rw [if_neg hf]; exact .inr rfl

/-! ## Requests by number and code (R166) -/

theorem exec_writeItem {number : Byte} {it : Item} (h : Item.ofNumber number = some it) (v : Word) (s : State) :
    exec (.writeItem number v) s = .next (guarded (putItem it v) s) := by
  have ht : takeWrite number v = unlessBusy (putItem it v) := by funext u; simp only [takeWrite, h]
  change Host.Outcome.next (request (takeWrite number v) s) = _
  rw [ht]
  rfl

theorem exec_command_of_code {code : Byte} {c : Command} (h : Command.ofCode code = some c) (v : Word) (straps : BitVec 3) (s : State) :
    exec (.unknownRequest (.command straps) code v) s = .next (request (giveCommand c v straps) s) := by
  have ht : takeGeneral (.command straps) code v = giveCommand c v straps := by funext u; simp only [takeGeneral, h]
  change Host.Outcome.next (request (takeGeneral (.command straps) code v) s) = _
  rw [ht]

/-- Settles O38: every number and every code goes to its own rule. -/
theorem requestsGoByNumberAndCode : Obligations.RequestsGoByNumberAndCode := by
  refine ⟨fun code v straps s => ⟨rfl, fun c hc => ?_⟩, fun v s ha => ?_⟩
  · fin_cases hc
    · exact exec_command_of_code (c := .start) rfl v straps s
    · exact exec_command_of_code (c := .stop) rfl v straps s
    · exact exec_command_of_code (c := .resume) rfl v straps s
    · exact exec_command_of_code (c := .safe) rfl v straps s
    · exact exec_command_of_code (c := .freeze) rfl v straps s
    · exact exec_command_of_code (c := .thaw) rfl v straps s
    · exact exec_command_of_code (c := .commitWindow) rfl v straps s
    · exact exec_command_of_code (c := .dropWindow) rfl v straps s
    · exact exec_command_of_code (c := .unlock) rfl v straps s
    · exact exec_command_of_code (c := .reset) rfl v straps s
    · exact exec_command_of_code (c := .clearLongest) rfl v straps s
  · intro same
    have item : ∀ {number : Byte} {it : Item} {c : Instr}, Item.ofNumber number = some it → exec c s = .next (guarded (putItem it v) s) →
        same number c := fun hm hc => (exec_writeItem hm v s).trans hc.symm
    refine ⟨item rfl rfl, item rfl rfl, item rfl rfl, item rfl rfl, item rfl rfl,
      item rfl rfl, item rfl rfl, item rfl rfl, item rfl rfl, item rfl rfl,
      item rfl rfl, item rfl rfl, item rfl rfl, item rfl rfl, item rfl rfl,
      item rfl rfl, item rfl rfl, item rfl rfl,
      fun n => ⟨(exec_writeItem (ofNumber_window n).1 v s).trans rfl, (exec_writeItem (ofNumber_window n).2 v s).trans rfl⟩,
      fun number hn => ?readOnly, ?force, fun number hn => ?undefined⟩
    case readOnly =>
      have readOnly : ∀ {number : Byte} {it : Item}, Item.ofNumber number = some it → putItem it v = refuse .argument →
          exec (.writeItem number v) s = .next (s.setMg (s.mg.refused .argument)) := fun hm hp => by
        rw [exec_writeItem hm, guarded_of_attending ha, hp]; rfl
      fin_cases hn <;> exact readOnly rfl rfl
    case force =>
      rw [exec_writeItem (it := .force) rfl, guarded_of_attending ha]; rfl
    case undefined =>
      have ht : takeWrite number v = answer .unknown 0 := by funext u; simp only [takeWrite, hn]
      change Host.Outcome.next (request (takeWrite number v) s) = _
      rw [ht, request_of_listening ha.1]; rfl


end Sys2Proof.Machine
end

section
/-! PROOF. A controller access taken: its routing, and what it waits for or ends with (R3, R4, R11 to R16, R38 to R46, R63 to R67, R81 to
R85). -/

namespace Sys2Proof.Machine
/-! ## The class and the treatment (R11, R12, R16) -/

theorem Freeze.cutOff_iff (f : Freeze) : f.cutOff = true ↔ f = .frozen ∨ f = .thawPending := by
  cases f <;> simp [Freeze.cutOff]

theorem Freeze.cutOff_eq_false_iff (f : Freeze) : f.cutOff = false ↔ f = .opened ∨ f = .freezePending := by
  cases f <;> simp [Freeze.cutOff]

theorem ite_cutOff {α : Type} (f : Freeze) (x y : α) : (if f = .frozen ∨ f = .thawPending then x else y) = if f.cutOff then x else y :=
  if_congr f.cutOff_iff.symm rfl rfl

section
variable {s : State} {a : Access} {n : WinIdx}

theorem classify_of_mark (h : isMark s a = true) : classify s a = .mark := by rw [classify, if_pos h]

theorem findWin_eq_none {ws : Windows} {b : Addr} (h : ∀ n : WinIdx, (ws[n]).covers b = false) : findWin ws b = none :=
  List.find?_eq_none.2 fun n _ => by rw [h n]; exact Bool.false_ne_true

theorem classify_of_plain (h : isMark s a = false) (hw : findWin s.win a.addr = none) : classify s a = .plain := by
  rw [classify, h, if_neg Bool.false_ne_true, hw]

theorem classify_of_input (h : isMark s a = false) (hw : findWin s.win a.addr = some n) (hk : (s.win[n]).record.kind = .input) :
    classify s a = .input n := by
  rw [classify, h, if_neg Bool.false_ne_true, hw]
  dsimp only
  rw [hk]

theorem classify_of_output (h : isMark s a = false) (hw : findWin s.win a.addr = some n) (hk : (s.win[n]).record.kind = .output) :
    classify s a = .output n := by
  rw [classify, h, if_neg Bool.false_ne_true, hw]
  dsimp only
  rw [hk]

theorem treatment_of_input (h : isMark s a = false) (hw : findWin s.win a.addr = some n) (hk : (s.win[n]).record.kind = .input) :
    treatment s a = if isEmptyWrite s a then .ack else inputTreatment s.ctl.mode n a.write (s.win[n]).freeze.cutOff := by
  rw [treatment, classify_of_input h hw hk]
  rfl

theorem treatment_of_output (h : isMark s a = false) (hw : findWin s.win a.addr = some n) (hk : (s.win[n]).record.kind = .output) :
    treatment s a = if isEmptyWrite s a then .ack else outputTreatment s.ctl.mode n a.write (s.win[n]).freeze.cutOff := by
  rw [treatment, classify_of_output h hw hk]
  rfl

theorem isEmptyWrite_of (hw : a.write = true) (he : a.enables = 0) (hm : s.ctl.mode = .armed ∨ s.ctl.mode = .run ∨ s.ctl.mode = .safe) :
    isEmptyWrite s a = true := by
  rw [isEmptyWrite, hw, he]
  rcases hm with hm | hm | hm <;> rw [hm] <;> rfl

theorem isEmptyWrite_of_read (hw : a.write = false) : isEmptyWrite s a = false := by rw [isEmptyWrite, hw]; rfl

theorem isEmptyWrite_of_enabled (h : a.enables ≠ 0 ∨ s.ctl.mode = .idle ∨ s.ctl.mode = .ending) : isEmptyWrite s a = false := by
  rcases h with h | h | h
  · rw [isEmptyWrite, decide_eq_false h, Bool.and_false, Bool.false_and]
  · rw [isEmptyWrite, h]
    exact Bool.and_false _
  · rw [isEmptyWrite, h]
    exact Bool.and_false _

end

/-- Settles O39: Table 1-3 by class, mode and freeze state, and the empty write. -/
theorem routingTable : Obligations.RoutingTable := by
  intro s a mode
  refine ⟨fun hw he ha => ?mark, fun hm hn => ?plain, fun hm n hn => ⟨fun hi => ?idle, fun hw he hx => ?empty,
    fun hw he => ⟨fun hk => ?inputWrite, fun hk => ?outputWrite⟩, fun hw => ⟨fun hk => ?inputRead, fun hk hi => ?outputRead⟩⟩⟩
  case mark =>
    have hm : isMark s a = true := by rw [isMark, hw, he, decide_eq_true ha]; rfl
    rw [treatment, classify_of_mark hm]
    change markTreatment mode = _
    cases mode <;> rfl
  case plain => rw [treatment, classify_of_plain hm (findWin_eq_none hn)]; rfl
  case idle =>
    have hi : s.ctl.mode = .idle := hi
    cases hk : (s.win[n]).record.kind with
    | input => rw [treatment_of_input hm hn hk, isEmptyWrite_of_enabled (.inr (.inl hi)), hi]; rfl
    | output => rw [treatment_of_output hm hn hk, isEmptyWrite_of_enabled (.inr (.inl hi)), hi]; rfl
  case empty =>
    have hx := isEmptyWrite_of hw he hx
    cases hk : (s.win[n]).record.kind with
    | input => rw [treatment_of_input hm hn hk, hx]; rfl
    | output => rw [treatment_of_output hm hn hk, hx]; rfl
  all_goals simp only [ite_cutOff]
  case inputWrite =>
    rw [treatment_of_input hm hn hk, isEmptyWrite_of_enabled (he.imp_right .inr), hw]
    refine ⟨fun h => ?_, fun h => ?_, fun h => ?_, fun h => ?_⟩ <;> rw [show s.ctl.mode = _ from h] <;>
      cases (s.win[n]).freeze.cutOff <;> rfl
  case outputWrite =>
    rw [treatment_of_output hm hn hk, isEmptyWrite_of_enabled (he.imp_right .inr), hw]
    refine ⟨fun h => ?_, fun h => ?_, fun h => ?_, fun h => ?_⟩ <;> rw [show s.ctl.mode = _ from h] <;>
      cases (s.win[n]).freeze.cutOff <;> rfl
  case inputRead =>
    rw [treatment_of_input hm hn hk, isEmptyWrite_of_read hw, hw]
    refine ⟨fun h => ?_, fun h => ?_, fun h => ?_, fun h => ?_⟩ <;> rw [show s.ctl.mode = _ from h] <;>
      cases (s.win[n]).freeze.cutOff <;> rfl
  case outputRead =>
    have hi : s.ctl.mode ≠ .idle := hi
    rw [treatment_of_output hm hn hk, isEmptyWrite_of_read hw, hw]
    cases h : s.ctl.mode
    case idle => exact absurd h hi
    all_goals cases (s.win[n]).freeze.cutOff <;> rfl

/-! ## A request for the Memory Port, granted (R97, R98) -/

section
variable {s : State} {o : Outstanding}

/-- An access to a window cut off from memory is withdrawn. -/
theorem grantController_of_cut_off {k : Service} (hc : s.cp = .outstanding o) (hw : o.wait = .service k)
    (hm : cutOffAddr s.win o.access.addr = true) : grantController s = s := by
  rw [grantController, hc]
  dsimp only
  rw [hw]
  dsimp only
  rw [mayBegin, hm]
  rfl

theorem grantController_of_pass (hc : s.cp = .outstanding o) (hw : o.wait = .service .pass)
    (hm : cutOffAddr s.win o.access.addr = false) : grantController s = begin (passAccess o.access .pass) o s := by
  rw [grantController, hc]
  dsimp only
  rw [hw]
  dsimp only
  rw [mayBegin, hm]
  rfl

theorem grantController_of_torn {n : WinIdx} (hc : s.cp = .outstanding o) (hw : o.wait = .service .torn) (ho : o.cls = .output n)
    (hm : cutOffAddr s.win o.access.addr = false) : grantController s = begin (passAccess o.access (.torn n)) o s := by
  rw [grantController, hc]
  dsimp only
  rw [hw, ho]
  dsimp only
  rw [mayBegin, hm]
  rfl

end

/-! ## The treatments carried out -/

theorem heldValue_of_imageWord {s : State} {n : WinIdx} {a : Addr} {w : Nat} (h : imageWord s.win .input n a = some w) :
    heldValue s n a = if (s.image.marksAt w).held = true then s.image.word w else 0 := by
  rw [heldValue, h]

/-- What the class of an access is, by the treatment it is given: a treatment that names a window is of an access to that window. -/
def Treatment.ForClass : Treatment → AccessClass → Prop
  | .held n, c | .sampled n, c => c = .input n
  | .passImage n, c | .imageOwed n, c | .merged n, c | .mergedNoMem n, c | .staged n, c => c = .output n
  | .passNoted, c | .discard true, c => ∃ n, c = .input n
  | .discard false, c | .endingStall, c => ∃ n, c = .output n
  | .firstMark, c | .boundary, c => c = .mark
  | .pass, _ | .ack, _ => True

theorem treatmentOf_forClass (s : State) (c : AccessClass) (a : Access) : (treatmentOf s c a).ForClass c := by
  cases c with
  | plain => exact trivial
  | mark =>
    change (markTreatment s.ctl.mode).ForClass .mark
    cases s.ctl.mode <;> simp [markTreatment, Treatment.ForClass]
  | input n =>
    simp only [treatmentOf]
    split
    · exact trivial
    · unfold inputTreatment
      split <;> simp [Treatment.ForClass]
  | output n =>
    simp only [treatmentOf]
    split
    · exact trivial
    · unfold outputTreatment
      split <;> simp [Treatment.ForClass]

theorem forClass_of_treatment {s : State} {c : AccessClass} {a : Access} {t : Treatment} (h : treatmentOf s c a = t) : t.ForClass c :=
  h ▸ treatmentOf_forClass s c a

/-- The treatments that have no effect beside their own. -/
def Treatment.Plain : Treatment → Prop
  | .firstMark | .boundary | .passNoted | .discard true | .staged _ => False
  | _ => True

/-- A treatment without effects beside its own is carried out, and that is all. -/
theorem route_of_plain_treatment {s : State} {o : Outstanding} {t : Treatment} (g : Bool) (h : treatmentOf s o.cls o.access = t)
    (ht : t.Plain) : route g o s = carryOut t o s := by
  unfold route
  rw [h]
  split
  case h_6 => rfl
  all_goals exact absurd ht id

theorem exec_controllerAccess_of_plain_treatment {s : State} {a : Access} {t : Treatment} (ho : CpOpen s) (g : Bool) (h : treatment s a = t)
    (ht : t.Plain) :
    exec (.controllerAccess a g) s = .next (followLevel .stageLow (carryOut t ⟨a, classify s a, .held, false⟩ s)) := by
  rw [exec_controllerAccess_of_open ho, route_of_plain_treatment (o := ⟨a, classify s a, .held, false⟩) g h ht]

theorem route_of_passNoted {s : State} {o : Outstanding} (g : Bool) (h : treatmentOf s o.cls o.access = .passNoted)
    (he : o.effectTaken = false) : route g o s =
      latch .inputWrite (if g && portFree s then grantController (waitFor (.service .pass) o.took s)
        else waitFor (.service .pass) o.took s) := by
  unfold route
  rw [h]
  dsimp only
  rw [he]
  rfl

theorem route_of_discard_noted {s : State} {o : Outstanding} (g : Bool) (h : treatmentOf s o.cls o.access = .discard true) :
    route g o s = if o.effectTaken then endAccess true 0 s else latch .inputWrite (endAccess true 0 s) := by
  unfold route
  rw [h]

/-- The store word of an address of an input window, for an access that its treatment names the window of. -/
theorem imageWord_of_input {s : State} {a : Access} {n : WinIdx} (h : classify s a = .input n) : imageWord s.win .input n a.addr =
    some ((s.win[n]).record.imageBase.toNat + (a.addr.toNat - (s.win[n]).record.base.toNat)) :=
  imageWord_of_covers (covers_of_classify_input h)

theorem imageWord_of_output {s : State} {a : Access} {n : WinIdx} (h : classify s a = .output n) : imageWord s.win .output n a.addr =
    some ((s.win[n]).record.imageBase.toNat + (a.addr.toNat - (s.win[n]).record.base.toNat)) :=
  imageWord_of_covers (covers_of_classify_output h)

/-- Settles O40: the treatments that wait, those answered at once, and the input write that passes. -/
theorem accessWaitsOrEnds : Obligations.AccessWaitsOrEnds := by
  refine ⟨fun a g s => ⟨fun ho => ⟨fun ht => ?pass, fun n ht => ?passImage, fun ht => ?ending⟩, fun hc hr => ?held, fun hc => ?refused⟩,
    fun a g s ho => ⟨fun ht => ?ack, fun ht => ?noted, fun n ht => ?read⟩,
    fun a g s ho ht => ⟨fun hx => ?waits, fun hg hp hm => ?begins⟩⟩
  case pass => exact exec_controllerAccess_of_plain_treatment ho g ht trivial
  case passImage => exact exec_controllerAccess_of_plain_treatment ho g ht trivial
  case ending => exact exec_controllerAccess_of_plain_treatment ho g ht trivial
  case held => exact congrArg Host.Outcome.next (by rw [takeAccess, hc]; dsimp only; rw [if_pos hr])
  case refused =>
    refine congrArg Host.Outcome.next ?_
    unfold takeAccess
    split
    · exact absurd ‹_› hc
    · rfl
  case ack =>
    rcases ht with ht | ht
    · exact exec_controllerAccess_of_plain_treatment ho g ht trivial
    · exact exec_controllerAccess_of_plain_treatment ho g ht trivial
  case noted => rw [exec_controllerAccess_of_open ho, route_of_discard_noted (o := ⟨a, classify s a, .held, false⟩) g ht]; rfl
  case read =>
    have hc : classify s a = .input n := forClass_of_treatment (t := .held n) ht
    rw [exec_controllerAccess_of_plain_treatment ho g ht trivial, carryOut, heldValue_of_imageWord (imageWord_of_input hc)]
    rfl
  case waits =>
    rw [exec_controllerAccess_of_open ho, route_of_passNoted (o := ⟨a, classify s a, .held, false⟩) g ht rfl]
    rcases hx with hg | hp | hm
    · rw [hg]; rfl
    · rw [hp, Bool.and_false]; rfl
    · rw [grantController_of_cut_off rfl rfl hm, ite_self]; rfl
  case begins =>
    rw [exec_controllerAccess_of_open ho, route_of_passNoted (o := ⟨a, classify s a, .held, false⟩) g ht rfl, hg, hp, grantController_of_pass rfl rfl hm]
    rfl
/-! ## The reads of a window (R63 to R65, R81 to R83) -/

theorem sharedReadOf_iff (s : State) (a : Addr) : sharedReadOf s a = true ↔
    ∃ p m stale, s.mp = some p ∧ p.owner = .walkRead m stale ∧ p.addr = a := by
  unfold sharedReadOf
  split
  · rename_i w b e d m stale h
    rw [h]
    refine ⟨fun ha => ⟨_, m, stale, rfl, rfl, (of_decide_eq_true ha).symm⟩, ?_⟩
    rintro ⟨p, -, -, hp, -, rfl⟩
    cases hp
    exact decide_eq_true rfl
  · rename_i h
    simp only [Bool.false_eq_true, false_iff]
    rintro ⟨⟨b, w, e, d, o⟩, m, stale, hp, ho, -⟩
    cases ho
    exact h _ _ _ _ _ _ hp

/-- Lane `k` of a word as the bridge holds it: of the open stage in RUN, else of the image word `w` where it is valid. -/
def foundLane (s : State) (w : Nat) (a : Addr) (k : Fin 4) : Option Byte :=
  (if s.ctl.mode = .run then
    (s.pool.openStage.find? fun e => decide (e.addr = a)).bind fun e => if e.mask[k] then some (lane k.val e.data) else none
    else none).orElse fun _ => if (s.image.marksAt w).valid[k] then some (s.image.byte (4 * w + k.val)) else none

theorem stagedLanes_lane (s : State) (a : Addr) (k : Fin 4) :
    (if s.ctl.mode = .run then
      (s.pool.openStage.find? fun e => decide (e.addr = a)).bind fun e => if e.mask[k] then some (lane k.val e.data) else none
      else none) = if (stagedLanes s a).1[k] then some (lane k.val (stagedLanes s a).2) else none := by
  unfold stagedLanes findEntry
  split
  · cases s.pool.openStage.find? fun e => decide (e.addr = a) with
    | none => simp
    | some e => rfl
  · simp

/-- What a merged read gathers, lane by lane: the lanes found, and zero on the others, which are the missing ones (R63). -/
theorem gather_lane {s : State} {n : WinIdx} {a : Addr} {w : Nat} (h : imageWord s.win .output n a = some w) (k : Fin 4) :
    lane k.val (gather s n a).1 = (foundLane s w a k).getD 0 ∧ (gather s n a).2[k] = (foundLane s w a k).isNone := by
  have hz : lane k.val (0 : Word) = 0 := by simp [lane]
  unfold foundLane
  rw [stagedLanes_lane]
  unfold gather
  rw [h]
  dsimp only
  rw [lane_mergeLanes, lane_mergeLanes, hz, Store.lane_word]
  have hn : (~~~((stagedLanes s a).1 ||| (s.image.marksAt w).valid))[k] =
      !((stagedLanes s a).1[k] || (s.image.marksAt w).valid[k]) := by simp
  rw [hn]
  cases (stagedLanes s a).1[k] <;> cases (s.image.marksAt w).valid[k] <;> simp

theorem lanes_eq_zero_iff (l : Lanes) : l = 0 ↔ ∀ k : Fin 4, l[k] = false := by
  revert l
  decide

/-- Settles O41: sampled reads by the FRESH mark and the walk read in flight, and merged reads by the lanes found. -/
theorem windowReadsServed : Obligations.WindowReadsServed := by
  refine ⟨fun a g s n ho ht => ?_, fun a g s n ho => ?_⟩
  · have hc : classify s a = .input n := forClass_of_treatment (t := .sampled n) ht
    have hexec := exec_controllerAccess_of_plain_treatment ho g ht trivial
    rw [hc, carryOut, sampledRead, imageWord_of_input hc] at hexec
    refine ⟨fun hf => ?_, fun hf hp => ?_, fun hf hp => ?_⟩
    · rw [hexec]
      dsimp only
      rw [if_pos hf]
      rfl
    · rw [hexec]
      dsimp only
      rw [hf, if_neg Bool.false_ne_true, readInput, if_pos ((sharedReadOf_iff s _).2 hp)]
      rfl
    · have hn : ¬sharedReadOf s a.addr = true := fun h => by
        obtain ⟨p, m, stale, h1, h2, h3⟩ := (sharedReadOf_iff s _).1 h
        exact hp p m stale h1 h2 h3
      rw [hexec]
      dsimp only
      rw [hf, if_neg Bool.false_ne_true, readInput, if_neg hn]
      rfl
  · intro w staged found
    have hgather : classify s a = .output n → ∀ k : Fin 4,
        lane k.val (gather s n a.addr).1 = (found k).getD 0 ∧ (gather s n a.addr).2[k] = (found k).isNone :=
      fun hc => gather_lane (imageWord_of_output hc)
    refine ⟨fun ht hall => ?_, fun ht hx => ?_, fun ht => ?_⟩
    · have hc : classify s a = .output n := forClass_of_treatment (t := .merged n) ht
      have hz : (gather s n a.addr).2 = 0 := (lanes_eq_zero_iff _).2 fun k => by
        rw [(hgather hc k).2, ← Option.not_isSome, hall k]; rfl
      refine ⟨(gather s n a.addr).1, ?_, fun k => ?_⟩
      · rw [exec_controllerAccess_of_plain_treatment ho g ht trivial, carryOut, mergedRead]
        dsimp only
        rw [if_pos hz]
        rfl
      · obtain ⟨v, hv⟩ := Option.isSome_iff_exists.1 (hall k)
        rw [(hgather hc k).1, hv]
        rfl
    · have hc : classify s a = .output n := forClass_of_treatment (t := .merged n) ht
      have hz : ¬(gather s n a.addr).2 = 0 := fun h => by
        obtain ⟨k, hk⟩ := hx
        have := (lanes_eq_zero_iff _).1 h k
        rw [(hgather hc k).2, hk] at this
        exact Bool.false_ne_true this.symm
      rw [exec_controllerAccess_of_plain_treatment ho g ht trivial, carryOut, mergedRead, hc]
      dsimp only
      rw [if_neg hz]
      rfl
    · have hc : classify s a = .output n := forClass_of_treatment (t := .mergedNoMem n) ht
      exact ⟨(gather s n a.addr).1, exec_controllerAccess_of_plain_treatment ho g ht trivial, fun k => (hgather hc k).1⟩

/-! ## A write to a frozen window, and a torn write (R43 to R46, R67) -/

/-- A write of lanes into an image word, with its marks: its enabled lanes alone, and its word's marks alone. -/
theorem writeImage_of_imageWord {s : State} {n : WinIdx} {a : Addr} {w : Nat} (h : imageWord s.win .output n a = some w) (l : Lanes)
    (v : Word) (f : Marks → Marks) : writeImage n a l v f s = s.setImage ((s.image.writeLanes w l v).mark w f) := by
  rw [writeImage, h]

theorem stageWrite_torn {s : State} {a : Access} (g : Bool) (n : WinIdx) (o : Outstanding) (ha : o.access = a)
    (hn : findEntry s.pool.openStage a.addr = none) (hf : freeCount s = 0) (hq : queuedCount s = 0) :
    stageWrite g n o s = tornWrite g n o s := by
  subst ha
  simp only [stageWrite, hn, hf, hq, lt_irrefl, if_false]

theorem tornWrite_of_cut_off {s : State} {n : WinIdx} (g : Bool) (o : Outstanding) (h : (s.win[n]).freeze.cutOff = true) :
    tornWrite g n o s = latch .torn (endAccess true 0
      (writeImage n o.access.addr o.access.enables o.access.data (Marks.owe o.access.enables) (markTorn s))) := if_pos h

theorem tornWrite_of_open {s : State} {n : WinIdx} (g : Bool) (o : Outstanding) (h : (s.win[n]).freeze.cutOff = false) :
    tornWrite g n o s = latch .torn (if g && portFree s then grantController (waitFor (.service .torn) o.took (markTorn s))
      else waitFor (.service .torn) o.took (markTorn s)) := if_neg (Bool.eq_false_iff.1 h)

/-- Settles O43: the image written in the frozen window, and the torn write in a frozen and in an open one. -/
theorem frozenAndTornWritesTaken : Obligations.FrozenAndTornWritesTaken := by
  refine ⟨fun a g s n ho hw ht => ?_, fun a g s n ho ht hn hf hq => ?_⟩
  · have hc : classify s a = .output n := forClass_of_treatment (t := .imageOwed n) ht
    intro w
    refine ⟨(s.image.writeLanes w a.enables a.data).mark w (Marks.owe a.enables), ?_, fun j k => ?_, fun j => ?_⟩
    · rw [exec_controllerAccess_of_plain_treatment ho g ht trivial, carryOut, writeImage_of_imageWord (imageWord_of_output hc)]
      rfl
    · rw [Store.byte_mark, Store.byte_writeLanes hw]
    · rw [Store.marksAt_mark (Store.wf_writeLanes hw _ _ _)]
      exact if_congr eq_comm rfl rfl
  · have hexec := exec_controllerAccess_staged ho ht g
    rw [stageWrite_torn (a := a) g n _ rfl (by exact hn) hf hq] at hexec
    refine ⟨fun hz => ?_, fun hz hx => ?_, fun hz hg hp hm => ?_⟩
    · rw [hexec, tornWrite_of_cut_off g _ ((Freeze.cutOff_iff _).2 hz)]
      rfl
    · rw [hexec, tornWrite_of_open g _ ((Freeze.cutOff_eq_false_iff _).2 hz)]
      rcases hx with hg | hp | hm
      · rw [hg]; rfl
      · rw [hp, Bool.and_false]; rfl
      · rw [grantController_of_cut_off rfl rfl hm, ite_self]; rfl
    · rw [hexec, tornWrite_of_open g _ ((Freeze.cutOff_eq_false_iff _).2 hz), hg, hp, grantController_of_torn rfl rfl rfl hm]
      rfl

end Sys2Proof.Machine
end

section
/-! PROOF. The ends of the stalls, the end of an access, and a waiting access routed anew (R11 to R15, R24, R30, R41, R79, R94). -/

namespace Sys2Proof.Machine
/-! ## The treatment of a class -/

section
variable {s : State} {a : Access} {n : WinIdx}

theorem isEmptyWrite_iff (s : State) (a : Access) : isEmptyWrite s a = true ↔
    a.write = true ∧ a.enables = 0 ∧ s.ctl.mode ≠ .idle ∧ s.ctl.mode ≠ .ending := by
  unfold isEmptyWrite
  cases s.ctl.mode <;> simp [acksEmpty]

theorem treatmentOf_empty {c : AccessClass} (hc : c = .input n ∨ c = .output n) (h : isEmptyWrite s a = true) :
    treatmentOf s c a = .ack := by
  rcases hc with rfl | rfl <;> exact if_pos h

theorem treatmentOf_input (h : isEmptyWrite s a = false) :
    treatmentOf s (.input n) a = inputTreatment s.ctl.mode n a.write (s.win[n]).freeze.cutOff := if_neg (Bool.eq_false_iff.1 h)

theorem treatmentOf_output (h : isEmptyWrite s a = false) :
    treatmentOf s (.output n) a = outputTreatment s.ctl.mode n a.write (s.win[n]).freeze.cutOff := if_neg (Bool.eq_false_iff.1 h)

theorem treatmentOf_idle (hm : s.ctl.mode = .idle) (c : AccessClass) : treatmentOf s c a = .pass := by
  have he : isEmptyWrite s a = false := isEmptyWrite_of_enabled (.inr (.inl hm))
  cases c with
  | plain => rfl
  | mark => rw [treatmentOf, hm]; rfl
  | input n => rw [treatmentOf_input he, hm]; rfl
  | output n => rw [treatmentOf_output he, hm]; rfl

theorem treatmentOf_staged (hm : s.ctl.mode = .run) (hw : a.write = true) (he : isEmptyWrite s a = false) :
    treatmentOf s (.output n) a = .staged n := by
  rw [treatmentOf_output he, hm, hw]; rfl

end

/-! ## Marks routed (R21, R22) -/

theorem route_of_firstMark {s : State} {o : Outstanding} (g : Bool) (h : treatmentOf s o.cls o.access = .firstMark) :
    route g o s = waitFor (.service .pass) o.took (if o.effectTaken then s else firstMark s) := by
  unfold route
  rw [h]

theorem route_of_boundary {s : State} {o : Outstanding} (g : Bool) (h : treatmentOf s o.cls o.access = .boundary) :
    route g o s = if o.effectTaken then waitFor (.service .pass) o s else markInRun o s := by
  unfold route
  rw [h]

theorem route_of_staged {s : State} {o : Outstanding} {n : WinIdx} (g : Bool) (h : treatmentOf s o.cls o.access = .staged n) :
    route g o s = if o.wait = .poolStall ∨ o.wait = .service .torn then s else stageWrite g n o s := by
  unfold route
  rw [h]

theorem route_of_passNoted_taken {s : State} {o : Outstanding} (g : Bool) (h : treatmentOf s o.cls o.access = .passNoted)
    (he : o.effectTaken = true) : route g o s = waitFor (.service .pass) o s := by
  unfold route
  rw [h]
  exact if_pos he

/-- A read of an output window goes to the image and memory in every mode but IDLE (R63 to R65). -/
theorem outputTreatment_read {m : Mode} (h : m ≠ .idle) (n : WinIdx) (cut : Bool) :
    outputTreatment m n false cut = if cut then .mergedNoMem n else .merged n := by
  cases m
  case idle => exact absurd rfl h
  all_goals cases cut <;> rfl

/-- The boundary of a stalled mark, OVERRUN latching for an unfinished walk alone (R79, R95). -/
theorem stalledBoundary_eq (o : Outstanding) (s : State) : stalledBoundary o s =
    if s.sampler.state = .walking then latch .overrun (waitFor (.service .pass) o.took (boundary s))
    else waitFor (.service .pass) o.took (boundary s) := if_congr decide_eq_true_iff rfl rfl

/-! ## The ends of the stalls -/

section
variable {s : State} {o : Outstanding}

theorem exec_markStallEnd (h : s.cp = .outstanding o) : exec .markStallEnd s = .next (endMarkStall o s) := by
  change execMarkStallEnd s = _
  rw [execMarkStallEnd, h]

theorem exec_poolStallEnd (h : s.cp = .outstanding o) : exec .poolStallEnd s = .next (endPoolStall o s) := by
  change execPoolStallEnd s = _
  rw [execPoolStallEnd, h]

theorem exec_endingStallEnd (h : s.cp = .outstanding o) : exec .endingStallEnd s = .next (endEndingStall o s) := by
  change execEndingStallEnd s = _
  rw [execEndingStallEnd, h]

theorem retirementDue_iff (s : State) : retirementDue s = true ↔ s.release.retireDue = true ∧ s.release.queue ≠ [] := by
  simp [retirementDue]

theorem exec_retirement (h : retirementDue s = true) : exec .retirement s = .next (retireWhole s) :=
  congrArg Host.Outcome.next (if_pos h)

end

/-- Settles O44: each end of a stall by its tests, and the end of an access. -/
theorem stallsAndAccessEnd : Obligations.StallsAndAccessEnd := by
  refine ⟨fun a c taken s => ?_, fun s => ⟨fun ack fail data h => ?ended, fun h => ?standing⟩⟩
  · intro after due
    have hdue : retirementDue s = true ↔ due := retirementDue_iff s
    refine ⟨fun hc hd => ?markDue, fun hc hd hm hq => ?mark, fun n hc hf hm hw he hn => ?pool, fun hc hm hr hq => ?endingDue,
      fun n hc hm => ?ending⟩
    case markDue =>
      rw [exec_markStallEnd hc, exec_retirement (hdue.2 hd), endMarkStall, if_pos rfl, if_pos (hdue.2 hd)]
    case mark =>
      rw [exec_markStallEnd hc, endMarkStall, if_pos rfl, if_neg (mt hdue.1 hd), if_pos hm, releaseMark, if_pos (by exact hq),
        stalledBoundary_eq]
      refine ⟨fun hw => ?_, fun hw => ?_⟩
      · rw [if_neg hw]; rfl
      · rw [if_pos hw]; rfl
    case pool =>
      have ht : treatmentOf s (.output n) a = .staged n :=
        treatmentOf_staged hm hw (isEmptyWrite_of_enabled (.inl he))
      rw [exec_poolStallEnd hc, endPoolStall, ht]
      dsimp only
      rw [if_pos ⟨rfl, hf⟩, stageWrite_takes_entry false n hn hf]
      rfl
    case endingDue =>
      have hne : s.release.queue ≠ [] := fun h => by simp [h] at hq
      have htail : s.release.queue.tail = [] := List.length_eq_zero_iff.1 (by rw [List.length_tail, hq])
      have hd : retirementDue s = true := hdue.2 ⟨hr, hne⟩
      rw [exec_endingStallEnd hc, exec_retirement hd, endEndingStall, if_pos rfl, if_neg (not_not.2 hm), if_pos ⟨hd, htail⟩]
    case ending =>
      have hne : s.ctl.mode ≠ .ending := by rw [hm]; decide
      rw [exec_endingStallEnd hc, endEndingStall, if_pos rfl, if_pos hne,
        route_of_plain_treatment false (t := .pass) (treatmentOf_idle hm _) trivial]
      rfl
  case ended =>
    change execCpReqNegated s = _
    rw [execCpReqNegated, h]
  case standing =>
    refine congrArg Host.Outcome.next ?_
    split
    · exact absurd ‹_› (h _ _ _)
    · rfl

/-! ## Routed anew -/

theorem reroute_of_changed {before s : State} {o : Outstanding} (hc : s.cp = .outstanding o) (hw : o.wait.movable = true)
    (h : before.ctl.mode ≠ s.ctl.mode ∨ ∃ n, (o.cls = .input n ∨ o.cls = .output n) ∧ (before.win[n]).freeze ≠ (s.win[n]).freeze) :
    reroute before s = route false o s := by
  rw [reroute_of_outstanding hc, if_pos ⟨hw, (routedBy_iff before s o.cls).2 h⟩]

theorem reroute_of_unchanged {before s : State} {o : Outstanding} (hc : s.cp = .outstanding o) (hm : before.ctl.mode = s.ctl.mode)
    (h : ∀ n, o.cls = .input n ∨ o.cls = .output n → (before.win[n]).freeze = (s.win[n]).freeze) : reroute before s = s := by
  rw [reroute_of_outstanding hc, if_neg]
  rintro ⟨-, hr⟩
  rcases (routedBy_iff before s o.cls).1 hr with hx | ⟨n, hn, hx⟩
  · exact hx hm
  · exact hx (h n hn)

theorem Outstanding.took_of_taken {o : Outstanding} (h : o.effectTaken = true) : o.took = o := by
  rw [Outstanding.took, ← h]

/-- Settles O45: the treatment of a class by mode and freeze state, carried out on the access that waits. -/
theorem waitingAccessRoutedAnew : Obligations.WaitingAccessRoutedAnew := by
  refine ⟨fun before s => ⟨fun h => reroute_of_still h, fun o hc hm hf => reroute_of_unchanged hc hm hf⟩, fun before s o hc hw hx => ?_⟩
  intro gives waits ends noted mode empty
  have hroute : reroute before s = route false o s := reroute_of_changed hc hw hx
  have hempty : empty ↔ isEmptyWrite s o.access = true := (isEmptyWrite_iff s o.access).symm
  have hfull : ¬empty → isEmptyWrite s o.access = false := fun h => Bool.eq_false_iff.2 (mt hempty.2 h)
  have plain : ∀ t : Treatment, treatmentOf s o.cls o.access = t → t.Plain → gives (carryOut t o s) := fun t ht hp =>
    hroute.trans (route_of_plain_treatment false ht hp)
  refine ⟨fun h => ?pass, fun hk h => ?mark, fun hk hm he => ?firstMark, fun n hk he => ?empty, fun n hk => ?input, fun n hk => ?output⟩
  case pass =>
    rcases h with h | h
    · exact plain .pass (treatmentOf_idle h _) trivial
    · exact plain .pass (by rw [h]; rfl) trivial
  case mark =>
    have hmark : treatmentOf s o.cls o.access = markTreatment s.ctl.mode := by rw [hk]; rfl
    rcases h with h | h | h
    · exact plain .pass (hmark.trans (by rw [show s.ctl.mode = .ending from h]; rfl)) trivial
    · exact plain .pass (hmark.trans (by rw [show s.ctl.mode = .safe from h]; rfl)) trivial
    · cases hm : s.ctl.mode
      case armed =>
        refine hroute.trans ((route_of_firstMark false (hmark.trans (by rw [hm]; rfl))).trans ?_)
        rw [if_pos h, Outstanding.took_of_taken h]
        rfl
      case run =>
        refine hroute.trans ((route_of_boundary false (hmark.trans (by rw [hm]; rfl))).trans ?_)
        rw [if_pos h]
        rfl
      all_goals exact plain .pass (hmark.trans (by rw [hm]; rfl)) trivial
  case firstMark =>
    have ht : treatmentOf s o.cls o.access = .firstMark := by rw [hk, treatmentOf, show s.ctl.mode = .armed from hm]; rfl
    refine hroute.trans ((route_of_firstMark false ht).trans ?_)
    rw [he, ← hk]
    rfl
  case empty => exact plain .ack (treatmentOf_empty hk (hempty.1 he)) trivial
  case input =>
    have hin : isEmptyWrite s o.access = false →
        treatmentOf s o.cls o.access = inputTreatment mode n o.access.write (s.win[n]).freeze.cutOff :=
      fun he => by rw [hk]; exact treatmentOf_input he
    intro cut
    have hcut : cut ↔ (s.win[n]).freeze.cutOff = true := ((s.win[n]).freeze.cutOff_iff).symm
    have hopen : ¬cut → (s.win[n]).freeze.cutOff = false := fun h => Bool.eq_false_iff.2 (mt hcut.2 h)
    have hread : o.access.write = false → isEmptyWrite s o.access = false := isEmptyWrite_of_read
    refine ⟨fun h => ?_, fun h => ⟨fun hwr => ?_, fun hwr he => ?_⟩, fun hm ho hwr => ?_, fun hm ho hwr he => ?_⟩
    · rcases h with hm | ⟨hm, ho, he⟩
      · exact plain .pass ((hin (isEmptyWrite_of_enabled (.inr (.inr hm)))).trans (by rw [hm]; cases o.access.write <;> rfl)) trivial
      · exact plain .pass ((hin (hfull he)).trans (by rw [hm, hopen ho]; cases o.access.write <;> rfl)) trivial
    · have ht : inputTreatment mode n false (s.win[n]).freeze.cutOff = .held n := by
        rcases h with hm | ⟨hm | hm, ho⟩
        · rw [hm]; rfl
        · rw [hm, hcut.1 ho]; rfl
        · rw [hm, hcut.1 ho]; rfl
      exact plain (.held n) ((hin (hread hwr)).trans (by rw [hwr, ht])) trivial
    · have ht : inputTreatment mode n true (s.win[n]).freeze.cutOff = .discard true := by
        rcases h with hm | ⟨hm | hm, ho⟩
        · rw [hm]; rfl
        · rw [hm, hcut.1 ho]; rfl
        · rw [hm, hcut.1 ho]; rfl
      exact hroute.trans (route_of_discard_noted false ((hin (hfull he)).trans (by rw [hwr, ht])))
    · exact plain (.sampled n) ((hin (hread hwr)).trans (by rw [hm, hwr, hopen ho]; rfl)) trivial
    · have ht : treatmentOf s o.cls o.access = .passNoted := (hin (hfull he)).trans (by rw [hm, hwr, hopen ho]; rfl)
      refine hroute.trans ?_
      by_cases hf : o.effectTaken = true
      · rw [route_of_passNoted_taken false ht hf, show noted = fun t => t from funext fun t => if_pos hf, ← hk, ← hf]
        rfl
      · rw [route_of_passNoted false ht (Bool.eq_false_iff.2 hf), show noted = latch .inputWrite from funext fun t => if_neg hf, ← hk]
        rfl
  case output =>
    have hout : isEmptyWrite s o.access = false →
        treatmentOf s o.cls o.access = outputTreatment mode n o.access.write (s.win[n]).freeze.cutOff :=
      fun he => by rw [hk]; exact treatmentOf_output he
    intro cut
    have hcut : cut ↔ (s.win[n]).freeze.cutOff = true := ((s.win[n]).freeze.cutOff_iff).symm
    have hopen : ¬cut → (s.win[n]).freeze.cutOff = false := fun h => Bool.eq_false_iff.2 (mt hcut.2 h)
    have hread : o.access.write = false → isEmptyWrite s o.access = false := isEmptyWrite_of_read
    refine ⟨fun hwr hm => ?_, fun hwr hm he ho => ?_, fun hwr hm he ho => ?_, fun hwr hm => ?_, fun hwr hm ho => ?_,
      fun hwr hm he hp => ?_, fun hwr hm ho => ?_⟩
    · exact plain .endingStall ((hout (isEmptyWrite_of_enabled (.inr (.inr hm)))).trans (by rw [hm, hwr]; rfl)) trivial
    · exact plain (.passImage n) ((hout (hfull he)).trans (by rw [hm, hwr, hopen ho]; rfl)) trivial
    · exact plain (.imageOwed n) ((hout (hfull he)).trans (by rw [hm, hwr, hcut.1 ho]; rfl)) trivial
    · by_cases he : empty
      · exact plain .ack (treatmentOf_empty (.inr hk) (hempty.1 he)) trivial
      · exact plain (.discard false) ((hout (hfull he)).trans (by rw [hm, hwr]; rfl)) trivial
    · exact plain (.merged n) ((hout (hread hwr)).trans (by rw [hwr, outputTreatment_read hm, hopen ho]; rfl)) trivial
    · have ht : treatmentOf s o.cls o.access = .staged n := (hout (hfull he)).trans (by rw [hm, hwr]; rfl)
      exact hroute.trans ((route_of_staged false ht).trans (if_pos hp))
    · exact plain (.mergedNoMem n) ((hout (hread hwr)).trans (by rw [hwr, outputTreatment_read hm, hcut.1 ho]; rfl)) trivial

end Sys2Proof.Machine
end

section
/-! PROOF. Marks and boundaries: what the first mark and a boundary leave in each block (R21, R22, R28, R53, R75 to R80, R112, R117, R153 to
R159). -/

namespace Sys2Proof.Machine
/-! ## The first mark and a mark in RUN -/

theorem Freeze.freezing_eq (f : Freeze) : f.freezing = decide (f = .frozen ∨ f = .freezePending) := by cases f <;> rfl

theorem Freeze.not_freezing_eq (f : Freeze) : (!f.freezing) = decide (f = .opened ∨ f = .thawPending) := by cases f <;> rfl

/-- The input windows that a walk covers are those OPEN or THAW-PENDING at its mark (R75). -/
theorem walkSetAt_eq (ws : Windows) : walkSetAt ws = allWin.filter fun n =>
    (ws[n]).isInput && decide ((ws[n]).freeze = .opened ∨ (ws[n]).freeze = .thawPending) :=
  List.filter_congr fun n _ => by rw [Freeze.not_freezing_eq]

theorem Sampler.goTo_walkSet (w : Sampler) (ws : Windows) (st : Store) (l : List (WinIdx × Nat)) : (w.goTo ws st l).walkSet = w.walkSet := by
  unfold Sampler.goTo
  split <;> rfl

theorem inInputImage_iff (ws : Windows) (w : Nat) : inInputImage ws w = true ↔
    ∃ n : WinIdx, (ws[n]).defined = true ∧ (ws[n]).record.kind = .input ∧ (ws[n]).record.inImage w = true := by
  simp [inInputImage, mem_allWin, and_assoc]

theorem markInRun_eq (o : Outstanding) (s : State) : markInRun o s =
    if 4 ≤ s.release.queue.length then latch .overrun (waitFor .markStall o s)
    else if s.release.queue ≠ [] ∨ s.sampler.state = .walking then latch .overrun (waitFor (.service .pass) o.took (boundary s))
    else waitFor (.service .pass) o.took (boundary s) :=
  if_congr Iff.rfl rfl (if_congr (or_congr Iff.rfl decide_eq_true_iff) rfl rfl)

/-- Settles O46: the first mark block by block, and a mark in RUN by the records outstanding and the walk. -/
theorem marksTaken : Obligations.MarksTaken := by
  refine ⟨fun a g s ho ht => ?first, fun a g s ho ht => ?run⟩
  case first =>
    have hc : classify s a = .mark := forClass_of_treatment (t := .firstMark) ht
    refine ⟨?_, rfl, rfl, ⟨walkSetAt_eq s.win ▸ Sampler.goTo_walkSet _ _ _ _, ?_⟩, fun hw w => ⟨fun hi => ?_, fun hi => ?_⟩, crossMark_eq s.mp,
      ?_, ?_, ?_, ?_, ?_, ?_, fun b => rfl, ?_, ?_, ?_, ?_, ?_⟩
    · rw [exec_controllerAccess_of_open ho, route_of_firstMark (o := ⟨a, classify s a, .held, false⟩) g ht, hc]
      rfl
    · rw [← walkSetAt_eq]
      exact walkBegin_comesTo (s := (s.setCtl _).setTiming _)
    · exact (Store.marksAt_clearFresh hw _ w).trans (if_pos ((inInputImage_iff _ _).2 hi))
    · exact (Store.marksAt_clearFresh hw _ w).trans (if_neg (mt (inInputImage_iff _ _).1 hi))
    · simp [SettingsKept]
    all_goals simp
  case run =>
    have hc : classify s a = .mark := forClass_of_treatment (t := .boundary) ht
    have hexec : exec (.controllerAccess a g) s = .next (followLevel .stageLow (markInRun ⟨a, .mark, .held, false⟩ s)) := by
      rw [exec_controllerAccess_of_open ho, route_of_boundary (o := ⟨a, classify s a, .held, false⟩) g ht, hc]
      rfl
    intro after
    rw [hexec, markInRun_eq]
    refine ⟨fun hq hw => ?_, fun hq hx => ?_, fun hq => ?_⟩
    · have hn : ¬(s.release.queue ≠ [] ∨ s.sampler.state = .walking) := by simp [hq, hw]
      rw [if_neg (by simp [hq]), if_neg hn]
      rfl
    · rw [if_neg (Nat.not_le.2 hq), if_pos hx]
      rfl
    · rw [if_pos hq]
      rfl

/-! ## A boundary, block by block -/

/-- The head's stage is a matter of the release queue alone. -/
theorem settleHead_eq (s : State) : settleHead s = s.setRelease (settleHead s).release := by
  unfold settleHead
  split
  · rfl
  · split
    · rfl
    · split
      · rfl
      · split <;> rfl

theorem boundary_eq_setRelease (s : State) : boundary s = (boundaryWork s).setRelease (boundary s).release := by
  rw [boundary_eq]
  split
  · exact settleHead_eq _
  · rfl

theorem boundaryWork_ctl (s : State) : (boundaryWork s).ctl =
    { mode := if s.ctl.stopPending then .ending else .run, number := nextCycle s.ctl.number, stopPending := false, first := false,
      torn := false } := by
  simp [boundaryWork, boundaryControl]

theorem boundaryWork_timing (s : State) : (boundaryWork s).timing =
    if s.ctl.stopPending then s.timing.sample.haltAtZero else s.timing.sample.restart := by
  simp [boundaryWork, boundaryControl]

theorem boundaryWork_win (s : State) : (boundaryWork s).win = settlePending s.win := by
  simp [boundaryWork, boundaryFreeze]

theorem boundaryWork_freeze (s : State) :
    (boundaryWork s).freeze = FreezeControl.follow { s.freeze with firstFlush := [] } s.win (settlePending s.win) := by
  simp [boundaryWork, boundaryFreeze, setWindows]

theorem boundaryWork_pool (s : State) : (boundaryWork s).pool = { s.pool with openStage := [] } := by
  simp [boundaryWork, boundaryPool, mapOwner, setOpenStage]

theorem boundaryWork_release (s : State) : (boundaryWork s).release = { s.release with queue := boundaryQueue s } := by
  simp [boundaryWork, boundaryPool, mapOwner, boundaryQueue]

theorem boundaryPool_image (s : State) : (boundaryPool s).image = boundaryImage s := rfl

theorem boundaryPool_mp (s : State) : (boundaryPool s).mp = s.mp.map fun p => { p with owner := p.owner.purge s.win } := rfl

theorem boundaryFreeze_win (s : State) : (boundaryFreeze s).win = settlePending s.win := rfl

theorem boundaryWork_image (s : State) : (boundaryWork s).image = (boundaryImage s).clearFresh (inInputImage (settlePending s.win)) := by
  unfold boundaryWork boundaryWalk
  split
  · simp [walkStop, boundaryPool_image, boundaryFreeze_win]
  · simp [walkBegin, boundaryPool_image, boundaryFreeze_win]

theorem boundaryWork_mp (s : State) :
    (boundaryWork s).mp = crossMark (s.mp.map fun p => { p with owner := p.owner.purge s.win }) := by
  unfold boundaryWork boundaryWalk
  split
  · simp [walkStop, boundaryPool_mp]
  · simp [walkBegin, boundaryPool_mp]

theorem boundaryWork_sampler_of_stop {s : State} (h : s.ctl.stopPending = true) :
    (boundaryWork s).sampler = { state := .stopped, position := none, walkSet := [], done := false } := by
  rw [boundaryWork, h]
  rfl

/-- Where a walk comes to is a matter of the records of the table and not of its freeze states. -/
theorem WalkComesTo.congr {ws vs : Windows} (h : SameTable ws vs) {st : Store} {ahead : WinIdx → Nat → Prop} {before after : Sampler}
    (hw : WalkComesTo vs st ahead before after) : WalkComesTo ws st ahead before after := by
  have hr : ∀ n : WinIdx, (vs[n]).record = (ws[n]).record := fun n => (h n).1
  simpa only [WalkComesTo, hr] using hw

/-- The walk of a boundary that does not stop the run. -/
theorem boundaryWork_walks {s : State} (h : s.ctl.stopPending = false) : (boundaryWork s).sampler.state ≠ .stopped ∧
    (boundaryWork s).sampler.walkSet = walkSetAt s.win ∧
    WalkComesTo s.win (boundaryWork s).image (fun _ _ => True) ⟨.walking, none, walkSetAt s.win, false⟩ (boundaryWork s).sampler := by
  have he : boundaryWork s = walkBegin s.win (boundaryControl (boundaryFreeze (boundaryPool s))) := by
    rw [boundaryWork, h]
    rfl
  have hw : (boundaryControl (boundaryFreeze (boundaryPool s))).win = settlePending s.win := by
    simp [boundaryFreeze]
  rw [he]
  refine ⟨?_, Sampler.goTo_walkSet _ _ _ _, .congr (SameTable.settlePending s.win) (hw ▸ walkBegin_comesTo)⟩
  change (Sampler.goTo _ _ _ _).state ≠ .stopped
  unfold Sampler.goTo
  split <;> simp [Sampler.finish]

/-- The sample of a boundary with the restart or the halt that follows it (R154, R155, R157, R159). -/
theorem Timing.boundary_acts (t : Timing) (stop : Bool) :
    let u := if stop then t.sample.haltAtZero else t.sample.restart
    u.last = t.count ∧ u.longest = (if t.longest < t.count then t.count else t.longest) ∧ u.count = 0 ∧ u.running = !stop ∧
    u.wdState = (if stop then .stopped else .running) ∧ u.wdLimit = (if stop then t.wdLimit else 10 * t.wdPeriod.toNat) ∧
    u.wdPeriod = t.wdPeriod ∧ u.prescale = t.prescale ∧
    (u.prescaleCount, u.capture, u.captured, u.captureOverrun) =
      (if t.prescaleCount + 1 = t.prescale then (0, t.count, true, t.captureOverrun || t.captured)
       else (t.prescaleCount + 1, t.capture, t.captured, t.captureOverrun)) := by
  dsimp only
  by_cases hp : t.prescaleCount + 1 = t.prescale
  · have hs : t.sample = { t with
        last := t.count, longest := if t.longest < t.count then t.count else t.longest, prescaleCount := 0, capture := t.count,
        captured := true, captureOverrun := t.captureOverrun || t.captured } := if_pos hp
    rw [hs, if_pos hp]
    cases stop <;> exact ⟨rfl, rfl, rfl, rfl, rfl, rfl, rfl, rfl, rfl⟩
  · have hs : t.sample = { t with
        last := t.count, longest := if t.longest < t.count then t.count else t.longest,
        prescaleCount := t.prescaleCount + 1 } := if_neg hp
    rw [hs, if_neg hp]
    cases stop <;> exact ⟨rfl, rfl, rfl, rfl, rfl, rfl, rfl, rfl, rfl⟩

/-- What the purge and the mark make of the owner of the access in flight (R53, R77). -/
theorem Owner.purge_crossMark (ws : Windows) (o : Owner) : (o.purge ws).crossMark = match o with
    | .walkRead n _ => .walkRead n true
    | .entry n .queued => if (ws[n]).freeze.freezing then .entry n .purged else .entry n .queued
    | .flushWord n x => .flushWord n (x || (ws[n]).freeze.freezing)
    | o => o := by
  cases o
  case entry n f =>
    cases f
    case queued =>
      simp only [Owner.purge]
      split <;> rfl
    all_goals rfl
  all_goals rfl

/-- Settles O47: each block at a boundary, the release queue apart. -/
theorem boundaryActs : Obligations.BoundaryActs := by
  intro s t
  have hb : t = (boundaryWork s).setRelease t.release := boundary_eq_setRelease s
  have hctl : t.ctl = (boundaryWork s).ctl := (congrArg State.ctl hb :)
  have htiming : t.timing = (boundaryWork s).timing := (congrArg State.timing hb :)
  have hwin : t.win = settlePending s.win := (congrArg State.win hb :).trans (boundaryWork_win s)
  have hfreeze : t.freeze = (boundaryWork s).freeze := (congrArg State.freeze hb :)
  have hsampler : t.sampler = (boundaryWork s).sampler := (congrArg State.sampler hb :)
  have himage : t.image = (boundaryWork s).image := (congrArg State.image hb :)
  have hmp : t.mp = (boundaryWork s).mp := (congrArg State.mp hb :)
  have hpool : t.pool = (boundaryWork s).pool := (congrArg State.pool hb :)
  obtain ⟨hlast, hlongest, hcount, hrunning, hstate, hlimit, hperiod, hprescale, hcapture⟩ := s.timing.boundary_acts s.ctl.stopPending
  rw [htiming, boundaryWork_timing]
  refine ⟨hctl.trans (boundaryWork_ctl s), hlast, hlongest, hcount, hrunning, hstate, hlimit, hperiod, hprescale, hcapture, fun n => ?win, ?flush,
    ?timer, hpool.trans (boundaryWork_pool s), fun h => hsampler.trans (boundaryWork_sampler_of_stop h), ?walk, ?mp, ?settings,
    ?_, ?_, ?_, ?_, ?_, ?_⟩
  case win =>
    rw [hwin, settlePending_get]
    cases (s.win[n]).freeze <;> rfl
  case flush => rw [hfreeze, boundaryWork_freeze, FreezeControl.follow_firstFlush]
  case timer =>
    rw [hfreeze, boundaryWork_freeze, hwin]
    exact .of_follow { s.freeze with firstFlush := [] } _ _
  case walk =>
    intro set h
    have hset : walkSetAt s.win = set := walkSetAt_eq s.win
    rw [hsampler, himage, ← hset]
    exact boundaryWork_walks h
  case mp =>
    intro freezing
    rw [hmp, boundaryWork_mp, crossMark, Option.map_map]
    refine congrArg (fun f => s.mp.map f) (funext fun p => ?_)
    have ho := p.owner.purge_crossMark s.win
    simp only [Freeze.freezing_eq] at ho
    rcases p with ⟨a, w, l, v, o⟩
    cases o
    case entry n f => cases f <;> exact congrArg (PortAccess.mk a w l v) ho
    all_goals exact congrArg (PortAccess.mk a w l v) ho
  case settings => simp [SettingsKept, t]
  all_goals simp [t]


end Sys2Proof.Machine
end

section
/-! PROOF. The batch record and the image at a boundary (R49 to R53, R90, R112). -/

namespace Sys2Proof.Machine
/-! ## The release queue -/

/-- The records and the flush set of a boundary, with the freeze states written out (R51 to R53, R112). -/
theorem boundaryFlushSet_eq (ws : Windows) (l : List WinIdx) : boundaryFlushSet ws l = allWin.filter fun n =>
    (decide ((ws[n]).freeze = .thawPending) || decide (n ∈ l)) && !decide ((ws[n]).freeze = .frozen ∨ (ws[n]).freeze = .freezePending) :=
  List.filter_congr fun n _ => by rw [Freeze.freezing_eq]

theorem Entry.freezing_eq (ws : Windows) (e : Entry) :
    e.freezing ws = decide ((ws[e.window]).freeze = .frozen ∨ (ws[e.window]).freeze = .freezePending) := Freeze.freezing_eq _

theorem purge_eq (ws : Windows) (r : BatchRecord) : r.purge ws =
    let freezing := fun n : WinIdx => decide ((ws[n]).freeze = .frozen ∨ (ws[n]).freeze = .freezePending)
    { r with
      entries := r.entries.filter fun e => !freezing e.window
      flushSet := r.flushSet.filter fun n => !freezing n
      flush := r.flush && (decide (r.flushSet.filter (fun n => !freezing n) ≠ []) || decide (r.flushSet = [])) } := by
  simp only [BatchRecord.purge, Entry.freezing_eq, Freeze.freezing_eq, Bool.not_and, decide_not, Bool.not_not]

/-- What of a record the choice of its stage does not touch. -/
def BatchRecord.view (r : BatchRecord) : BitVec 16 × List Entry × Bool × Bool × Bool := (r.cycle, r.entries, r.first, r.torn, r.flush)

theorem settleHead_view (s : State) : (settleHead s).release.queue.map BatchRecord.view = s.release.queue.map BatchRecord.view := by
  unfold settleHead
  split
  · rfl
  · rename_i r rest hq
    rw [hq]
    split
    · rfl
    · split
      · rfl
      · split <;> rfl

theorem purgedInFlight_iff (mp : Option PortAccess) : purgedInFlight mp = true ↔ ∃ p n, mp = some p ∧ p.owner = .entry n .purged := by
  unfold purgedInFlight
  split
  · exact ⟨fun _ => ⟨_, _, rfl, rfl⟩, fun _ => rfl⟩
  · rename_i h
    refine ⟨fun e => absurd e Bool.false_ne_true, ?_⟩
    rintro ⟨⟨a, w, l, v, o⟩, n, rfl, ho⟩
    cases ho
    exact absurd rfl (h _ _ _ _ _)

/-- An entry in flight is a purged one after the boundary where it was one before, or the purge has reached it (R53). -/
theorem Owner.purged_iff (ws : Windows) (o : Owner) (n : WinIdx) : (o.purge ws).crossMark = .entry n .purged ↔
    o = .entry n .purged ∨ o = .entry n .queued ∧ (ws[n]).freeze.freezing = true := by
  rw [Owner.purge_crossMark]
  cases o
  case entry m f =>
    cases f
    case queued =>
      dsimp only
      cases h : (ws[m]).freeze.freezing
      · rw [if_neg Bool.false_ne_true]
        simp
        rintro rfl
        exact h
      · rw [if_pos rfl]
        simp
        rintro rfl
        exact h
    all_goals simp
  all_goals simp

/-- Settles O48: the purge and the new record, and the stage of a head that is new or has lost its entry in flight. -/
theorem boundaryFormsRecord : Obligations.BoundaryFormsRecord := by
  intro s freezing flush after
  have hafter : boundaryQueue s = after := by
    have hrecord : newRecord s =
        ⟨s.ctl.number, s.pool.openStage.filter fun e => !freezing e.window, flush, s.ctl.first, s.ctl.torn, decide (flush ≠ []), .queued⟩ := by
      simp only [newRecord, Entry.freezing_eq, boundaryFlushSet_eq]
      rfl
    rw [boundaryQueue, hrecord, show BatchRecord.purge s.win = _ from funext fun r => purge_eq s.win r]
  have hrelease : (boundaryWork s).release = { s.release with queue := after } := by rw [boundaryWork_release, hafter]
  have hformed : ∀ r, (boundary s).setRelease r = (boundaryWork s).setRelease r := fun r => by rw [boundary_eq_setRelease]; rfl
  refine ⟨?_, ?_⟩
  · change (boundary s).release.queue.map BatchRecord.view = after.map BatchRecord.view
    have hq : (boundaryWork s).release.queue = after := by rw [hrelease]
    rw [boundary_eq, ← hq]
    split
    · exact settleHead_view _
    · rfl
  · intro orphan formed
    have hwork : formed = boundaryWork s := (hformed _).trans (by rw [← hrelease]; rfl)
    have horphan : purgedInFlight (boundaryWork s).mp = true ↔ orphan := by
      rw [purgedInFlight_iff, boundaryWork_mp, crossMark, Option.map_map]
      simp only [orphan, freezing, ← Freeze.freezing_eq, ← Owner.purged_iff]
      constructor
      · rintro ⟨q, n, hq, ho⟩
        obtain ⟨p, hp, rfl⟩ := Option.map_eq_some_iff.1 hq
        exact ⟨p, n, hp, ho⟩
      · rintro ⟨p, n, hp, ho⟩
        exact ⟨_, n, by rw [hp]; rfl, ho⟩
    rw [hwork, boundary_eq]
    exact ⟨fun h => if_pos (h.imp_right horphan.2), fun hq ho => if_neg (not_or.2 ⟨hq, mt horphan.1 ho⟩)⟩

/-! ## The image -/

/-- The bytes and the marks of a store with owed set on the lanes that `p` names, where they are valid, and nothing else changed. -/
structure OwesBack (p : Nat → Fin 4 → Prop) (st su : Store) : Prop where
  wf : su.wf
  byte : ∀ a, su.byte a = st.byte a
  marks : ∀ w, (su.marksAt w).valid = (st.marksAt w).valid ∧ (su.marksAt w).held = (st.marksAt w).held ∧
    (su.marksAt w).fresh = (st.marksAt w).fresh
  owed : ∀ w (k : Fin 4), (su.marksAt w).owed[k] = true ↔ (st.marksAt w).owed[k] = true ∨ ((st.marksAt w).valid[k] = true ∧ p w k)

theorem OwesBack.none {st : Store} (h : st.wf) : OwesBack (fun _ _ => False) st st where
  wf := h
  byte _ := rfl
  marks _ := ⟨rfl, rfl, rfl⟩
  owed w k := by simp

theorem OwesBack.trans {p q : Nat → Fin 4 → Prop} {st su sv : Store} (h : OwesBack p st su) (h' : OwesBack q su sv) :
    OwesBack (fun w k => p w k ∨ q w k) st sv where
  wf := h'.wf
  byte a := (h'.byte a).trans (h.byte a)
  marks w := by
    obtain ⟨h1, h2, h3⟩ := h.marks w
    obtain ⟨k1, k2, k3⟩ := h'.marks w
    exact ⟨k1.trans h1, k2.trans h2, k3.trans h3⟩
  owed w k := by
    rw [h'.owed, h.owed, (h.marks w).1]
    tauto

theorem OwesBack.congr {p q : Nat → Fin 4 → Prop} {st su : Store} (h : OwesBack p st su) (e : ∀ w k, p w k ↔ q w k) : OwesBack q st su where
  wf := h.wf
  byte := h.byte
  marks := h.marks
  owed w k := by rw [h.owed, e]

/-- The mark of one entry taken back. -/
theorem OwesBack.markEntry {st : Store} (h : st.wf) (ws : Windows) (e : Entry) :
    OwesBack (fun w k => imageWord ws .output e.window e.addr = some w ∧ e.mask[k] = true) st (markEntry ws e (Marks.oweBack e.mask) st) := by
  unfold Machine.markEntry
  split
  · rename_i v hv
    refine ⟨Store.wf_mark h _ _, fun a => rfl, fun w => ?_, fun w k => ?_⟩ <;> rw [Store.marksAt_mark h]
    · by_cases hw : v = w
      · subst hw
        rw [if_pos rfl]
        exact ⟨rfl, rfl, rfl⟩
      · rw [if_neg hw]
        exact ⟨rfl, rfl, rfl⟩
    · by_cases hw : v = w
      · subst hw
        rw [if_pos rfl, hv]
        simp [Marks.oweBack, and_comm]
      · rw [if_neg hw, hv]
        simp [hw]
  · rename_i hv
    exact (OwesBack.none h).congr fun w k => by simp [hv]

theorem OwesBack.foldl (ws : Windows) (l : List Entry) {st : Store} (h : st.wf) :
    OwesBack (fun w k => ∃ e ∈ l, imageWord ws .output e.window e.addr = some w ∧ e.mask[k] = true) st
      (l.foldl (fun st e => Machine.markEntry ws e (Marks.oweBack e.mask) st) st) := by
  induction l generalizing st with
  | nil => exact (OwesBack.none h).congr fun w k => by simp
  | cons e l ih =>
    have here := OwesBack.markEntry h ws e
    exact (here.trans (ih here.wf)).congr fun w k => by simp

/-- A lane of a store word that an entry or a flush word in flight writes, of a window freezing at the mark (R52, R53). -/
def FlightReached (ws : Windows) (mp : Option PortAccess) (w : Nat) (k : Fin 4) : Prop :=
  ∃ p n, mp = some p ∧ (p.owner = .entry n .queued ∨ ∃ x, p.owner = .flushWord n x) ∧ (ws[n]).freeze.freezing = true ∧
    imageWord ws .output n p.addr = some w ∧ p.enables[k] = true

theorem OwesBack.purgeFlight (ws : Windows) (mp : Option PortAccess) {st : Store} (h : st.wf) :
    OwesBack (FlightReached ws mp) st (purgeFlight ws mp st) := by
  have nothing : (∀ p n, mp = some p → ¬(p.owner = .entry n .queued ∨ ∃ x, p.owner = .flushWord n x)) →
      OwesBack (FlightReached ws mp) st st := fun hn =>
    (OwesBack.none h).congr fun w k => ⟨False.elim, fun ⟨p, n, hp, ho, _⟩ => hn p n hp ho⟩
  have reached : ∀ p n, mp = some p → (∀ m, (p.owner = .entry m .queued ∨ ∃ x, p.owner = .flushWord m x) ↔ m = n) →
      OwesBack (FlightReached ws mp) st
        (if (ws[n]).freeze.freezing then Machine.markEntry ws ⟨p.addr, n, p.data, p.enables⟩ (Marks.oweBack p.enables) st else st) := by
    intro p n hp ho
    by_cases hz : (ws[n]).freeze.freezing = true
    · rw [if_pos hz]
      refine (OwesBack.markEntry h ws ⟨p.addr, n, p.data, p.enables⟩).congr fun w k => ⟨fun hw => ⟨p, n, hp, (ho n).2 rfl, hz, hw⟩, ?_⟩
      rintro ⟨q, m, hq, hm, -, hw⟩
      cases hp.symm.trans hq
      cases (ho m).1 hm
      exact hw
    · rw [if_neg hz]
      refine (OwesBack.none h).congr fun w k => ⟨False.elim, ?_⟩
      rintro ⟨q, m, hq, hm, hf, -⟩
      cases hp.symm.trans hq
      cases (ho m).1 hm
      exact hz hf
  rcases mp with - | ⟨a, wr, l, v, o⟩
  · exact nothing fun p n hp => by cases hp
  · cases o
    case entry n f =>
      cases f
      case queued => exact reached _ n rfl fun m => by simp [eq_comm]
      all_goals exact nothing fun p n hp => by cases hp; simp
    case flushWord n x => exact reached _ n rfl fun m => by simp [eq_comm]
    all_goals exact nothing fun p n hp => by cases hp; simp

theorem commitStage_wf (s : State) (h : s.image.wf) : (s.pool.openStage.foldl (commitEntry s.win) s.image).wf :=
  (Remarked.foldl (commitEntry_remarked s.win) s.pool.openStage s.image).wf h

/-- The image of a boundary is the committed one, with owed set where the purge reaches (R49, R52, R53). -/
theorem boundaryImage_owes {s : State} (h : s.image.wf) :
    OwesBack (fun w k =>
      (∃ e ∈ (s.release.queue.flatMap (·.entries)).filter fun e => e.freezing s.win,
        imageWord s.win .output e.window e.addr = some w ∧ e.mask[k] = true) ∨ FlightReached s.win s.mp w k)
      (s.pool.openStage.foldl (commitEntry s.win) s.image) (boundaryImage s) := by
  have purged := OwesBack.foldl s.win ((s.release.queue.flatMap (·.entries)).filter fun e => e.freezing s.win) (commitStage_wf s h)
  exact purged.trans (OwesBack.purgeFlight s.win s.mp purged.wf)

theorem boundary_image (s : State) : (boundary s).image = (boundaryImage s).clearFresh (inInputImage s.win) := by
  have hs : inInputImage (settlePending s.win) = inInputImage s.win := by
    funext w
    refine Bool.eq_iff_iff.2 ?_
    simp only [inInputImage_iff, (SameTable.settlePending s.win _).1, (SameTable.settlePending s.win _).2]
  rw [← hs, ← boundaryWork_image, boundary_eq_setRelease]
  rfl

theorem commitEntry_of_imageWord {ws : Windows} {st : Store} {e : Entry} {w : Nat} (h : imageWord ws .output e.window e.addr = some w) :
    commitEntry ws st e = (st.writeLanes w e.mask e.data).mark w
      (if (ws[e.window]).freeze.freezing then Marks.owe e.mask else Marks.settle e.mask) := by
  rw [commitEntry, h]

/-- Settles O49: the commit of one entry, and the committed image with what the purge owes and the input slices no longer FRESH. -/
theorem boundaryCommits : Obligations.BoundaryCommits := by
  refine ⟨fun ws st e w hw hi => ?entry, fun s hw => ?image⟩
  case entry =>
    intro t
    have ht : t = (st.writeLanes w e.mask e.data).mark w
        (if (ws[e.window]).freeze.freezing then Marks.owe e.mask else Marks.settle e.mask) := commitEntry_of_imageWord hi
    have hmarks : ∀ j, t.marksAt j = if w = j then
        (if (ws[e.window]).freeze.freezing then Marks.owe e.mask else Marks.settle e.mask) (st.marksAt w) else st.marksAt j := fun j => by
      rw [ht, Store.marksAt_mark (Store.wf_writeLanes hw _ _ _)]
      rfl
    refine ⟨fun j k => ?_, fun j hj => (hmarks j).trans (if_neg (Ne.symm hj)), ?_⟩
    · rw [ht, Store.byte_mark, Store.byte_writeLanes hw]
    · rw [hmarks, if_pos rfl, Freeze.freezing_eq]
      simp only [decide_eq_true_eq]
      split <;> exact ⟨rfl, rfl, rfl, rfl⟩
  case image =>
    intro freezing committed hits purged st
    have howes := boundaryImage_owes hw
    have hst : st = (boundaryImage s).clearFresh (inInputImage s.win) := boundary_image s
    have hmarks : ∀ w, st.marksAt w = if inInputImage s.win w = true then { (boundaryImage s).marksAt w with fresh := false }
        else (boundaryImage s).marksAt w := fun w => by rw [hst, Store.marksAt_clearFresh howes.wf]
    have hfreezing : ∀ n : WinIdx, (s.win[n]).freeze.freezing = true ↔ freezing n := fun n => by
      rw [Freeze.freezing_eq, decide_eq_true_eq]
    refine ⟨fun a => ?_, fun w => ?_, fun w k => ?_⟩
    · rw [hst]
      exact howes.byte a
    · obtain ⟨h1, h2, h3⟩ := howes.marks w
      rw [hmarks, ← h1, ← h2, ← h3]
      cases inInputImage s.win w
      · exact ⟨rfl, rfl, (Bool.and_true _).symm⟩
      · exact ⟨rfl, rfl, (Bool.and_false _).symm⟩
    · have ho : (st.marksAt w).owed = ((boundaryImage s).marksAt w).owed := by
        rw [hmarks]
        split <;> rfl
      rw [ho, howes.owed]
      refine or_congr Iff.rfl (and_congr Iff.rfl ?_)
      simp only [FlightReached, hfreezing, List.mem_filter, List.mem_flatMap, Entry.freezing]
      refine or_congr ⟨?_, ?_⟩ Iff.rfl
      · rintro ⟨e, ⟨⟨r, hr, he⟩, hz⟩, hw⟩
        exact ⟨r, hr, e, he, hz, hw⟩
      · rintro ⟨r, hr, e, he, hz, hw⟩
        exact ⟨e, ⟨⟨r, hr, he⟩, hz⟩, hw⟩

end Sys2Proof.Machine
end

section
/-! PROOF. The arbiter: whose request waits and whose is granted (R2, R97, R98; Tables 5-1, 6-3, 6-5). -/

namespace Sys2Proof.Machine
/-! ## Whose request waits -/

theorem cutOffAddr_iff (ws : Windows) (a : Addr) : cutOffAddr ws a = true ↔
    ∃ n : WinIdx, (ws[n]).covers a = true ∧ ((ws[n]).freeze = .frozen ∨ (ws[n]).freeze = .thawPending) := by
  simp [cutOffAddr, mem_allWin, Freeze.cutOff_iff]

theorem cutOffAddr_eq_false {ws : Windows} {a : Addr} (h : ∀ n : WinIdx, (ws[n]).covers a = true → (ws[n]).freeze.cutOff = false) :
    cutOffAddr ws a = false := by
  rw [← Bool.not_eq_true, cutOffAddr_iff]
  rintro ⟨n, hc, hf⟩
  exact Bool.false_ne_true ((h n hc).symm.trans ((Freeze.cutOff_iff _).2 hf))

theorem controllerWaiting_iff (s : State) : controllerWaiting s = true ↔
    ∃ o k, s.cp = .outstanding o ∧ o.wait = .service k ∧ cutOffAddr s.win o.access.addr = false := by
  unfold controllerWaiting
  split
  · rename_i a c k taken h
    rw [h]
    refine ⟨fun hm => ⟨_, k, rfl, rfl, by simpa [mayBegin] using hm⟩, ?_⟩
    rintro ⟨o, k', ho, hw, hm⟩
    cases ho
    rw [mayBegin, hm]
    rfl
  · rename_i h
    refine ⟨fun e => absurd e Bool.false_ne_true, ?_⟩
    rintro ⟨⟨a, c, w, taken⟩, k, ho, rfl, -⟩
    exact absurd ho (h _ _ _ _)

theorem controllerWaiting_of {s : State} {o : Outstanding} {k : Service} (hc : s.cp = .outstanding o) (hw : o.wait = .service k)
    (hm : cutOffAddr s.win o.access.addr = false) : controllerWaiting s = true := (controllerWaiting_iff s).2 ⟨o, k, hc, hw, hm⟩

theorem walkReadInFlight_iff (s : State) : walkReadInFlight s = true ↔ ∃ p n x, s.mp = some p ∧ p.owner = .walkRead n x := by
  unfold walkReadInFlight
  split
  · rename_i h
    exact ⟨fun _ => ⟨_, _, _, h, rfl⟩, fun _ => rfl⟩
  · rename_i h
    refine ⟨fun e => absurd e Bool.false_ne_true, ?_⟩
    rintro ⟨⟨a, w, l, v, o⟩, n, x, hp, rfl⟩
    exact absurd hp (h _ _ _ _ _ _)

theorem samplerRequest_waiting_iff (s : State) : samplerRequest s = .waiting ↔
    s.sampler.state = .walking ∧ s.sampler.position ≠ none ∧ ∀ p n x, s.mp = some p → p.owner ≠ .walkRead n x := by
  have hr : (∀ p n x, s.mp = some p → p.owner ≠ .walkRead n x) ↔ ¬walkReadInFlight s = true := by
    rw [walkReadInFlight_iff]
    push Not
    rfl
  rw [hr, samplerRequest, ← Option.isSome_iff_ne_none]
  split
  · simp_all
  · split <;> simp_all

theorem WorkPhase.requests_iff (p : WorkPhase) : p.requests = true ↔ p ≠ .due := by cases p <;> simp [WorkPhase.requests]

theorem engineWork_of_queue {s : State} (h : s.release.queue ≠ []) : engineWork s = .draining := if_pos h

theorem engineWork_of_fill {s : State} (h : s.release.queue = []) (hf : s.fill.active = true) : engineWork s = .filling :=
  (if_neg (not_not.2 h)).trans (if_pos hf)

theorem engineWork_of_reissue {s : State} (h : s.release.queue = []) (hf : s.fill.active = false) (hr : s.reissue.resuming = true) :
    engineWork s = .reissuing :=
  (if_neg (not_not.2 h)).trans ((if_neg (Bool.eq_false_iff.1 hf)).trans (if_pos hr))

theorem releaseWaiting_iff (s : State) : releaseWaiting s = true ↔ (s.release.queue ≠ [] ∧ s.release.retireDue = false) ∨
    (s.release.queue = [] ∧ s.fill.active = true ∧ s.fill.phase ≠ .due) ∨
    (s.release.queue = [] ∧ s.fill.active = false ∧ s.reissue.resuming = true ∧ s.reissue.phase ≠ .due) := by
  by_cases hq : s.release.queue = []
  · cases hf : s.fill.active
    · cases hr : s.reissue.resuming
      · simp [releaseWaiting, engineWork, hq, hf, hr]
      · simp [releaseWaiting, engineWork_of_reissue hq hf hr, WorkPhase.requests_iff, hq]
    · simp [releaseWaiting, engineWork_of_fill hq hf, WorkPhase.requests_iff, hq]
  · simp [releaseWaiting, engineWork_of_queue hq, hq]

/-! ## A grant -/

section
variable {lines : PortLines} {s : State}

theorem exec_memoryPortGrant (hr : s.lines.resetHeld = false) : exec (.memoryPortGrant lines) s = .next (grantPort (samplePort lines s)) :=
  congrArg Host.Outcome.next (unlessReset_of_negated hr _)

theorem portFree_samplePort (lines : PortLines) (s : State) :
    portFree (samplePort lines s) = (s.mp.isNone && !lines.ack && !lines.fail) := rfl

/-- Nothing is granted while an access is in flight or a line is asserted (R2). -/
theorem grantPort_of_busy (h : s.mp ≠ none ∨ lines.ack = true ∨ lines.fail = true) : grantPort (samplePort lines s) = samplePort lines s := by
  refine if_pos ?_
  rw [portFree_samplePort]
  rcases h with h | h | h
  · cases hm : s.mp
    · exact absurd hm h
    · rfl
  · rw [h, Bool.not_true, Bool.and_false]
    rfl
  · rw [h, Bool.not_true, Bool.and_false]
    rfl

/-- With the port free the choice is among the requests as they wait, which the lines taken do not change. -/
theorem grantPort_of_free (hm : s.mp = none) (ha : lines.ack = false) (hf : lines.fail = false) : grantPort (samplePort lines s) =
    if controllerWaiting s then grantController (samplePort lines s)
    else if releaseWaiting s && (decide (samplerRequest s ≠ .waiting) || decide (s.background = .sampler)) then
      grantRelease (samplePort lines s)
    else if samplerRequest s = .waiting then grantSampler (samplePort lines s)
    else samplePort lines s := by
  refine if_neg ?_
  rw [portFree_samplePort, hm, ha, hf]
  decide

end

/-- Settles O52: whose request waits, and the order of the grants. -/
theorem grantOrder : Obligations.GrantOrder := by
  refine ⟨fun s => ⟨cutOffAddr_iff s.win, ?_, samplerRequest_waiting_iff s, releaseWaiting_iff s⟩, fun lines s hr => ?_⟩
  · simp only [controllerWaiting_iff, ← cutOffAddr_iff, Bool.not_eq_true]
  · intro t grants
    have hgrants : ∀ u, grantPort (samplePort lines s) = u → grants u := fun u h => (exec_memoryPortGrant hr).trans (congrArg _ h)
    refine ⟨fun h => hgrants _ (grantPort_of_busy h), fun hm ha hf => ?_⟩
    have hfree := grantPort_of_free (s := s) hm ha hf
    refine ⟨fun hc => ?_, fun hc hw hs hb => ?_, fun hc hw hs hb => ?_, fun hc hw hs => ?_, fun hc hw hs => ?_, fun hc hw hs => ?_⟩ <;>
      refine hgrants _ (hfree.trans ?_) <;> simp only [hc, Bool.false_eq_true, if_true, if_false]
    · rfl
    · simp only [hw, hs, hb]; rfl
    · simp only [hw, hs, hb]; rfl
    · simp only [hw, decide_eq_true hs]; rfl
    · simp only [hw, hs]; rfl
    · simp only [hw, hs]; rfl


end Sys2Proof.Machine
end

section
/-! PROOF. The accesses that begin at a grant, and the requests withdrawn there (R3, R44, R64, R66, R76, R83, R91 to R93, R96, R97, R98, R138,
R139, R147 to R149; Table 11-11). -/

namespace Sys2Proof.Machine
/-! ## The one whose request is granted -/

/-- The port as a grant finds it: both lines negated. -/
def quiet (s : State) : State := s.setLines { s.lines with mpAck := false, mpFail := false }

section
variable {s : State} (hr : s.lines.resetHeld = false) (hm : s.mp = none)
include hr hm

theorem exec_grant_free : exec (.memoryPortGrant ⟨false, false⟩) s = .next
    (if controllerWaiting s then grantController (quiet s)
    else if releaseWaiting s && (decide (samplerRequest s ≠ .waiting) || decide (s.background = .sampler)) then grantRelease (quiet s)
    else if samplerRequest s = .waiting then grantSampler (quiet s)
    else quiet s) :=
  (exec_memoryPortGrant hr).trans (congrArg Host.Outcome.next (grantPort_of_free hm rfl rfl))

theorem exec_grant_controller (hc : controllerWaiting s = true) :
    exec (.memoryPortGrant ⟨false, false⟩) s = .next (grantController (quiet s)) := by
  rw [exec_grant_free hr hm, if_pos hc]

theorem exec_grant_release (hc : controllerWaiting s = false) (hs : samplerRequest s ≠ .waiting) (hw : releaseWaiting s = true) :
    exec (.memoryPortGrant ⟨false, false⟩) s = .next (grantRelease (quiet s)) := by
  rw [exec_grant_free hr hm, hc, if_neg Bool.false_ne_true, hw, decide_eq_true hs]
  rfl

theorem exec_grant_sampler (hc : controllerWaiting s = false) (hs : samplerRequest s = .waiting) (hw : releaseWaiting s = false) :
    exec (.memoryPortGrant ⟨false, false⟩) s = .next (grantSampler (quiet s)) := by
  rw [exec_grant_free hr hm, hc, if_neg Bool.false_ne_true, hw, Bool.false_and, if_neg Bool.false_ne_true, if_pos hs]

theorem exec_grant_drain (hc : controllerWaiting s = false) (hs : samplerRequest s ≠ .waiting) (hq : s.release.queue ≠ [])
    (hd : s.release.retireDue = false) : exec (.memoryPortGrant ⟨false, false⟩) s = .next (grantDrain (quiet s)) := by
  rw [exec_grant_release hr hm hc hs ((releaseWaiting_iff s).2 (.inl ⟨hq, hd⟩)), grantRelease,
    engineWork_of_queue (s := quiet s) hq]

theorem exec_grant_fill (hc : controllerWaiting s = false) (hs : samplerRequest s ≠ .waiting) (hq : s.release.queue = [])
    (hf : s.fill.active = true) (hp : s.fill.phase ≠ .due) :
    exec (.memoryPortGrant ⟨false, false⟩) s = .next (grantFill (quiet s)) := by
  rw [exec_grant_release hr hm hc hs ((releaseWaiting_iff s).2 (.inr (.inl ⟨hq, hf, hp⟩))), grantRelease,
    engineWork_of_fill (s := quiet s) hq hf]

theorem exec_grant_reissue (hc : controllerWaiting s = false) (hs : samplerRequest s ≠ .waiting) (hq : s.release.queue = [])
    (hf : s.fill.active = false) (hu : s.reissue.resuming = true) (hp : s.reissue.phase ≠ .due) :
    exec (.memoryPortGrant ⟨false, false⟩) s = .next (grantReissue (quiet s)) := by
  rw [exec_grant_release hr hm hc hs ((releaseWaiting_iff s).2 (.inr (.inr ⟨hq, hf, hu, hp⟩))), grantRelease,
    engineWork_of_reissue (s := quiet s) hq hf hu]

end

/-! ## The head record's request -/

theorem mayBegin_eq_true {s : State} {a : Addr} (h : cutOffAddr s.win a = false) : mayBegin s a = true := by
  rw [mayBegin, h]
  rfl

theorem mayBegin_eq_false {s : State} {a : Addr} (h : cutOffAddr s.win a = true) : mayBegin s a = false := by
  rw [mayBegin, h]
  rfl

section
variable {s : State} {r : BatchRecord} {rest : List BatchRecord} (hq : s.release.queue = r :: rest)
include hq

theorem grantDrain_of_entry (hs : r.stage = .writing) {e : Entry} {es : List Entry} (he : r.entries = e :: es)
    (hm : cutOffAddr s.win e.addr = false) : grantDrain s = beginRelease e.addr e.mask e.data (.entry e.window .queued) s := by
  rw [grantDrain, hq]
  dsimp only
  rw [hs]
  dsimp only
  rw [he]
  exact if_pos (mayBegin_eq_true hm)

theorem grantDrain_of_no_entry (hs : r.stage = .writing) (he : r.entries = []) : grantDrain s = settleHead s := by
  rw [grantDrain, hq]
  dsimp only
  rw [hs]
  dsimp only
  rw [he]

theorem grantDrain_of_flush (hs : r.stage = .flushing) {n : WinIdx} {off : Nat} (hp : s.release.flushPos = some (n, off))
    (hn : n ∈ r.flushSet) : grantDrain s =
      if (s.image.marksAt ((s.win[n]).imageAt off)).owed = 0 ∨ cutOffAddr s.win ((s.win[n]).addrAt off) = true then flushOn s
      else beginRelease ((s.win[n]).addrAt off) (s.image.marksAt ((s.win[n]).imageAt off)).owed (s.image.word ((s.win[n]).imageAt off))
        (.flushWord n false) s := by
  rw [grantDrain, hq]
  dsimp only
  rw [hs]
  dsimp only
  rw [hp]
  dsimp only
  rw [if_neg (not_not.2 hn), mayBegin, Bool.not_not]

theorem grantDrain_of_no_flush (hs : r.stage = .flushing) (h : ∀ m k, s.release.flushPos = some (m, k) → m ∉ r.flushSet) :
    grantDrain s = settleHead s := by
  rw [grantDrain, hq]
  dsimp only
  rw [hs]
  dsimp only
  split
  · rfl
  · rename_i n off hp
    exact if_pos (h n off hp)

theorem grantDrain_of_marker (hs : r.stage = .marking) (hm : cutOffAddr s.win s.marker.addr = false) : grantDrain s =
    beginRelease s.marker.addr allLanes (markerWord r.cycle r.first r.torn r.flush false false) (.batchMarker true) s := by
  rw [grantDrain, hq]
  dsimp only
  rw [hs]
  exact if_pos (mayBegin_eq_true hm)

end

/-! ## The requests of a fill and of a reissue -/

section
variable {s : State} {n : WinIdx}

theorem grantFill_of_word (hp : s.fill.phase = .words) {ns : List WinIdx} (hl : s.fill.list = n :: ns) : grantFill s =
    if cutOffAddr s.win ((s.win[n]).addrAt s.fill.offset) = true then fillOn s
    else beginRelease ((s.win[n]).addrAt s.fill.offset) allLanes (fillData s.win[n] s.image s.fill.offset) (.fillWord n true) s := by
  rw [grantFill, hp, hl]
  dsimp only
  cases hc : cutOffAddr s.win ((s.win[n]).addrAt s.fill.offset)
  · rw [if_neg Bool.false_ne_true, if_pos (mayBegin_eq_true hc)]
  · rw [if_pos rfl, mayBegin_eq_false hc, if_neg Bool.false_ne_true]

theorem grantFill_of_marker (hp : s.fill.phase = .marker) (hm : cutOffAddr s.win s.marker.addr = false) : grantFill s =
    beginRelease s.marker.addr allLanes (markerWord s.ctl.number false false false true false) (.safeMarker true) s := by
  rw [grantFill, hp]
  exact if_pos (mayBegin_eq_true hm)

theorem grantReissue_of_word (hp : s.reissue.phase = .words) {off : Nat} (hq : s.reissue.position = some (n, off)) : grantReissue s =
    if (s.image.marksAt ((s.win[n]).imageAt off)).valid = 0 ∨ cutOffAddr s.win ((s.win[n]).addrAt off) = true then reissuePast s
    else beginRelease ((s.win[n]).addrAt off) (s.image.marksAt ((s.win[n]).imageAt off)).valid (s.image.word ((s.win[n]).imageAt off))
      (.reissueWord n true) s := by
  rw [grantReissue, hp, hq]
  dsimp only
  rw [mayBegin, Bool.not_not]

theorem grantReissue_of_marker (hp : s.reissue.phase = .marker) (hm : cutOffAddr s.win s.marker.addr = false) : grantReissue s =
    beginRelease s.marker.addr allLanes (markerWord s.ctl.number false false false false true) (.reissueMarker true) s := by
  rw [grantReissue, hp]
  exact if_pos (mayBegin_eq_true hm)

end

theorem markerWord_batch (c : BitVec 16) (f t l : Bool) :
    markerWord c f t l false false = c.setWidth 32 ||| bitAt f 16 ||| bitAt t 17 ||| bitAt l 18 := by
  simp [markerWord, fieldAt, bitAt]

theorem markerWord_safe (c : BitVec 16) : markerWord c false false false true false = c.setWidth 32 ||| bitAt true 19 := by
  simp [markerWord, fieldAt, bitAt]

theorem markerWord_reissue (c : BitVec 16) : markerWord c false false false false true = c.setWidth 32 ||| bitAt true 20 := by
  simp [markerWord, fieldAt, bitAt]

/-- Settles O50: a pass, an entry, a fill word and the three markers at their grants. -/
theorem grantsBeginAccesses : Obligations.GrantsBeginAccesses := by
  refine ⟨fun a c taken s hr hm hc ho => ?pass, fun s r rest e es hr hm hc hs hq hst he hd hcut => ?entry,
    fun s n ns hr hm hc hs hq hf hp hl => ?fill, fun s hr hm hc hs hcut => ⟨fun r rest hq hd hst => ?batch, fun hq hf hp => ?safe,
      fun hq hf hu hp => ?reissue⟩⟩
  case pass =>
    have hcut := cutOffAddr_eq_false ho
    rw [exec_grant_controller hr hm (controllerWaiting_of hc rfl hcut), grantController_of_pass (s := quiet s) hc rfl hcut]
    rfl
  case entry =>
    rw [exec_grant_drain hr hm hc hs (by simp [hq]) hd, grantDrain_of_entry (s := quiet s) hq hst he hcut]
    rfl
  case fill =>
    intro a v hcut
    rw [exec_grant_fill hr hm hc hs hq hf (by simp [hp]), grantFill_of_word (s := quiet s) hp hl]
    exact congrArg Host.Outcome.next (if_neg (Bool.eq_false_iff.1 hcut))
  case batch =>
    rw [exec_grant_drain hr hm hc hs (by simp [hq]) hd, grantDrain_of_marker (s := quiet s) hq hst hcut, markerWord_batch]
    rfl
  case safe =>
    rw [exec_grant_fill hr hm hc hs hq hf (by simp [hp]), grantFill_of_marker (s := quiet s) hp hcut, markerWord_safe]
    rfl
  case reissue =>
    rw [exec_grant_reissue hr hm hc hs hq hf hu (by simp [hp]), grantReissue_of_marker (s := quiet s) hp hcut, markerWord_reissue]
    rfl


end Sys2Proof.Machine
end

section
/-! PROOF. The other grants to the controller's access, and the words of the walk, the flush, the fill and the reissue at their grants (R44,
R64, R66, R76, R83, R91, R92, R98, R138, R141, R147, R149). -/

namespace Sys2Proof.Machine
/-! ## The controller's other requests -/

section
variable {s : State} {o : Outstanding} {n : WinIdx}

theorem grantController_of_passImage (hc : s.cp = .outstanding o) (hw : o.wait = .service .passImage) (ho : o.cls = .output n)
    (hm : cutOffAddr s.win o.access.addr = false) : grantController s = begin (passAccess o.access (.passImage n)) o s := by
  rw [grantController, hc]
  dsimp only
  rw [hw, ho]
  dsimp only
  rw [mayBegin, hm]
  rfl

theorem grantController_of_fetch (hc : s.cp = .outstanding o) (hw : o.wait = .service .fetch) (ho : o.cls = .input n)
    (hm : cutOffAddr s.win o.access.addr = false) :
    grantController s = begin ⟨o.access.addr, false, allLanes, 0, .fetch n⟩ o s := by
  rw [grantController, hc]
  dsimp only
  rw [hw, ho]
  dsimp only
  rw [mayBegin, hm]
  rfl

theorem grantController_of_merged (hc : s.cp = .outstanding o) (hw : o.wait = .service .merged) (ho : o.cls = .output n)
    (hm : cutOffAddr s.win o.access.addr = false) : grantController s =
      if (gather s n o.access.addr).2 = 0 then endAccess true (gather s n o.access.addr).1 s
      else begin ⟨o.access.addr, false, (gather s n o.access.addr).2, 0,
        .merged (gather s n o.access.addr).1 (gather s n o.access.addr).2⟩ o s := by
  rw [grantController, hc]
  dsimp only
  rw [hw, ho]
  dsimp only
  rw [mayBegin, hm]
  rfl

end

theorem gather_quiet (s : State) (n : WinIdx) (a : Addr) : gather (quiet s) n a = gather s n a := gather_congr rfl rfl rfl rfl n a

/-! ## The words of the background requesters -/

theorem grantSampler_of_position {s : State} {n : WinIdx} {off : Nat} (h : s.sampler.position = some (n, off)) : grantSampler s =
    if (s.image.marksAt ((s.win[n]).imageAt off)).fresh = true ∨ cutOffAddr s.win ((s.win[n]).addrAt off) = true then walkOn s
    else (beginAccess ⟨(s.win[n]).addrAt off, false, allLanes, 0, .walkRead n false⟩ s).setBackground .sampler := by
  rw [grantSampler, h]
  dsimp only
  rw [mayBegin, Bool.not_not]
  exact if_congr (by rw [Bool.or_eq_true]; rfl) rfl rfl

/-- The fill leaves its word: to the next of the window, to the next window, or past the last one (R138, R139, R149). -/
theorem fillOn_within {s : State} {n : WinIdx} {ns : List WinIdx} (hl : s.fill.list = n :: ns) (h : s.fill.offset + 1 < (s.win[n]).words) :
    fillOn s = s.setFill { s.fill with offset := s.fill.offset + 1 } := by
  rw [fillOn, hl]
  exact if_pos h

theorem fillOn_next_window {s : State} {n : WinIdx} {ns : List WinIdx} (hl : s.fill.list = n :: ns)
    (h : (s.win[n]).words ≤ s.fill.offset + 1) (hn : ns ≠ []) : fillOn s = s.setFill { s.fill with list := ns, offset := 0 } := by
  rw [fillOn, hl]
  dsimp only
  rw [if_neg (Nat.not_lt.2 h), if_pos hn]

theorem fillOn_last {s : State} {n : WinIdx} (hl : s.fill.list = [n]) (h : (s.win[n]).words ≤ s.fill.offset + 1) : fillOn s =
    if s.reissue.resuming then reissueOn (s.setFill ⟨[], 0, false, .words⟩)
    else s.setFill { s.fill with list := [], offset := 0, phase := if s.marker.enabled then .marker else .due } := by
  rw [fillOn, hl]
  dsimp only
  rw [if_neg (Nat.not_lt.2 h), if_neg (not_not.2 rfl)]
  rfl

/-- The reissue leaves its word (R147, R149). -/
theorem reissuePast_of_words {s : State} {n : WinIdx} {off : Nat} (hp : s.reissue.phase = .words) (hq : s.reissue.position = some (n, off)) :
    reissuePast s = if s.fill.active then s.setReissue { s.reissue with position := some (n, off + 1) }
      else reissueFrom n (off + 1) (s.setReissue { s.reissue with position := some (n, off + 1) }) := by
  have hs : s.setReissue { s.reissue with position := s.reissue.position.map fun p => (p.1, p.2 + 1) } =
      s.setReissue { s.reissue with position := some (n, off + 1) } := by rw [hq]; rfl
  have hr : reissueOn (s.setReissue { s.reissue with position := some (n, off + 1) }) =
      reissueFrom n (off + 1) (s.setReissue { s.reissue with position := some (n, off + 1) }) := by
    unfold reissueOn
    simp only [State.setReissue_reissue, hp]
  unfold reissuePast
  dsimp only
  rw [hs, hr]
  rfl

/-- Settles O51: the controller's requests by their kind, and each background word as the image and the freeze states stand at its grant. -/
theorem serviceAndWordGrants : Obligations.ServiceAndWordGrants := by
  refine ⟨fun a taken n c k s hr hm hc hcut => ?controller, fun n off s hr hm hc => ?words⟩
  case controller =>
    intro t begins g
    have hexec : exec (.memoryPortGrant ⟨false, false⟩) s = .next (grantController (quiet s)) :=
      exec_grant_controller hr hm (controllerWaiting_of hc rfl hcut)
    refine ⟨fun hk hcls => hexec.trans ?_, fun hk hcls => hexec.trans ?_, fun hk hcls => hexec.trans ?_, fun hk hcls hg => hexec.trans ?_,
      fun hk hcls hg => hexec.trans ?_⟩ <;> subst hk hcls
    · rw [grantController_of_passImage (s := quiet s) hc rfl rfl hcut]; rfl
    · rw [grantController_of_torn (s := quiet s) hc rfl rfl hcut]; rfl
    · rw [grantController_of_fetch (s := quiet s) hc rfl rfl hcut]; rfl
    · rw [grantController_of_merged (s := quiet s) hc rfl rfl hcut, gather_quiet, if_neg (by exact hg)]; rfl
    · rw [grantController_of_merged (s := quiet s) hc rfl rfl hcut, gather_quiet, if_pos (by exact hg)]; rfl
  case words =>
    intro t a m data gives
    refine ⟨fun hs hp hw => ?walk, fun hs r rest hq hst hd hp hn => ?flush, fun hs r rest hq hd => ⟨fun hst he => ?entry, fun hst hp => ?flushed⟩,
      fun hs hq hf hp ns hl ho hcut => ?fill, fun hs hq hf hu hp hpos => ?reissue⟩
    case walk =>
      have hs' : samplerRequest s = .waiting := (samplerRequest_waiting_iff s).2 ⟨hs, by simp [hp], by simp [hm]⟩
      have hgives : gives (grantSampler (quiet s)) := exec_grant_sampler hr hm hc hs' hw
      rw [grantSampler_of_position (s := quiet s) hp] at hgives
      refine ⟨fun hfresh hcut => ?_, fun h => ?_⟩
      · refine hgives.trans (congrArg Host.Outcome.next (if_neg ?_))
        rintro (h | h)
        · exact Bool.false_ne_true (hfresh.symm.trans h)
        · exact Bool.false_ne_true (hcut.symm.trans h)
      · exact hgives.trans (congrArg Host.Outcome.next (if_pos h))
    case flush =>
      have hgives : gives (grantDrain (quiet s)) := exec_grant_drain hr hm hc hs (by simp [hq]) hd
      rw [grantDrain_of_flush (s := quiet s) hq hst hp hn] at hgives
      have hon : flushOn (quiet s) = settleHead (t.setRelease { s.release with flushPos := some (n, off + 1) }) := by
        change settleHead (t.setRelease { s.release with flushPos := s.release.flushPos.map fun p => (p.1, p.2 + 1) }) = _
        rw [hp]
        rfl
      refine ⟨fun howed hcut => ?_, fun h => ?_⟩
      · refine hgives.trans (congrArg Host.Outcome.next (if_neg ?_))
        rintro (h | h)
        · exact howed h
        · exact Bool.false_ne_true (hcut.symm.trans h)
      · exact hgives.trans (congrArg Host.Outcome.next ((if_pos h).trans hon))
    case entry =>
      exact (exec_grant_drain hr hm hc hs (by simp [hq]) hd).trans
        (congrArg Host.Outcome.next (grantDrain_of_no_entry (s := quiet s) hq hst he))
    case flushed =>
      exact (exec_grant_drain hr hm hc hs (by simp [hq]) hd).trans
        (congrArg Host.Outcome.next (grantDrain_of_no_flush (s := quiet s) hq hst hp))
    case fill =>
      have hgives : gives (fillOn (quiet s)) := by
        refine (exec_grant_fill hr hm hc hs hq hf (by simp [hp])).trans (congrArg Host.Outcome.next ?_)
        rw [grantFill_of_word (s := quiet s) hp hl]
        exact if_pos (by subst ho; exact hcut)
      subst ho
      refine ⟨fun h => ?_, fun h => ⟨fun hn => ?_, fun hn hu => ?_, fun hn hu => ?_⟩⟩
      · rwa [fillOn_within (s := quiet s) hl h] at hgives
      · rwa [fillOn_next_window (s := quiet s) hl h hn] at hgives
      · subst hn
        rw [fillOn_last (s := quiet s) hl h, if_neg (Bool.eq_false_iff.1 (by exact hu))] at hgives
        exact hgives
      · subst hn
        rw [fillOn_last (s := quiet s) hl h, if_pos (by exact hu)] at hgives
        exact hgives
    case reissue =>
      have hgives : gives (grantReissue (quiet s)) := exec_grant_reissue hr hm hc hs hq hf hu (by simp [hp])
      rw [grantReissue_of_word (s := quiet s) hp hpos, reissuePast_of_words (s := quiet s) hp hpos,
        if_neg (c := (quiet s).fill.active = true) (Bool.eq_false_iff.1 (by exact hf))] at hgives
      refine ⟨fun hv hcut => ?_, fun h => ?_⟩
      · refine hgives.trans (congrArg Host.Outcome.next (if_neg ?_))
        rintro (h | h)
        · exact hv h
        · exact Bool.false_ne_true (hcut.symm.trans h)
      · exact hgives.trans (congrArg Host.Outcome.next (if_pos h))

end Sys2Proof.Machine
end

section
/-! PROOF. The end of a Memory Port access and what it leaves: the controller's own accesses, a write to an output window, and a
priority fetch or a walk read (R2, R3, R44, R64, R66, R76 to R78, R82, R83, R86, R99, R174; log 8). -/

namespace Sys2Proof.Machine

/-! ## The requester's end, MEMORY, and what follows -/

section
variable {e : AccessEnd} {s u : State} {p : PortAccess}

theorem exec_end_of_goesOn (hr : s.lines.resetHeld = false) (hm : s.mp = some p) (hu : ownerEnd p e.good e.word (e.closes s) = u)
    (hg : e.goesOn u) : exec e.command s = .next (followLevel .stageLow (goOn p.owner (e.latches u))) := by
  rw [exec_accessEnd e hr hm, hu]
  exact congrArg (fun t => Host.Outcome.next (followLevel .stageLow t)) (if_pos ((e.goesOn_iff u).2 hg))

theorem exec_end_of_stops (hr : s.lines.resetHeld = false) (hm : s.mp = some p) (hu : ownerEnd p e.good e.word (e.closes s) = u)
    (hg : ¬e.goesOn u) : exec e.command s = .next (followLevel .stageLow (e.latches u)) := by
  rw [exec_accessEnd e hr hm, hu]
  exact congrArg (fun t => Host.Outcome.next (followLevel .stageLow t)) (if_neg fun h => hg ((e.goesOn_iff u).1 h))

/-- An access whose requester has nothing to go on with. -/
theorem exec_end_of_idle_owner (hr : s.lines.resetHeld = false) (hm : s.mp = some p) (ho : ∀ t, goOn p.owner t = t)
    (hu : ownerEnd p e.good e.word (e.closes s) = u) : exec e.command s = .next (followLevel .stageLow (e.latches u)) := by
  by_cases hg : e.goesOn u
  · rw [exec_end_of_goesOn hr hm hu hg, ho]
  · exact exec_end_of_stops hr hm hu hg

theorem AccessEnd.good_word (h : e.good = true) : e.word = e.data := by
  cases e
  case acked => rfl
  all_goals cases h

theorem AccessEnd.data_of_not_good (h : e.good = false) : e.data = 0 := by
  cases e
  case acked => cases h
  all_goals rfl

theorem AccessEnd.latches_of_good (h : e.good = true) (s : State) : e.latches s = s := if_pos h

theorem AccessEnd.latches_of_not_good (h : e.good = false) (s : State) : e.latches s = latch .memory s := if_neg (by simp [h])

/-- The access ends with the data of a good end, and with zero otherwise (R3). -/
theorem endAccess_of_end (e : AccessEnd) (s : State) : endAccess e.good e.word s = s.setCp (.ended e.good (!e.good) e.data) := by
  unfold endAccess
  cases h : e.good
  · rw [e.data_of_not_good h]; rfl
  · rw [e.good_word h]; rfl

end

/-! ## What the latching of a cause leaves as it is, the port being free -/

/-- The image, a free port, a set MEMORY flag and an ended access are left as they are. -/
structure EndStands (s t : State) : Prop where
  image : t.image = s.image
  mp : s.mp = none → t.mp = none
  flag : s.causes.flag .memory = true → t.causes.flag .memory = true
  cp : ∀ ok fail d, s.cp = .ended ok fail d → t.cp = .ended ok fail d

theorem EndStands.trans {s t u : State} (h : EndStands s t) (h' : EndStands t u) : EndStands s u :=
  ⟨h'.image.trans h.image, h'.mp ∘ h.mp, h'.flag ∘ h.flag, fun _ _ _ hc => h'.cp _ _ _ (h.cp _ _ _ hc)⟩

theorem EndStands.enterSafe (s : State) : EndStands s (enterSafe s) where
  image := by simp
  mp h := by rw [enterSafe_mp, h]; rfl
  flag h := by rw [enterSafe_flag_other (by decide) (by decide)]; exact h
  cp ok fail d h := by
    have hstill : CpStill (safeBlocks s).cp := by
      rw [safeBlocks_cp, h]
      intro o ho
      cases ho
    rw [enterSafe_cp, rerouteSafe_of_still hstill, safeBlocks_cp, h]

theorem EndStands.abandonReissue (s : State) : EndStands s (abandonReissue s) where
  image := by simp
  mp h := by
    simp only [Machine.abandonReissue, mapOwner, h]
    simp [beginFill, complete]
  flag h := by simpa using h
  cp ok fail d h := by simpa using h

theorem EndStands.setFlag (c : Cause) (s : State) : EndStands s (s.setCauses (s.causes.setFlag c)) :=
  ⟨rfl, id, fun h => by simp only [State.setCauses_causes, CauseUnit.flag_setFlag, h, Bool.true_or], fun _ _ _ h => h⟩

theorem EndStands.latch (c : Cause) (s : State) : EndStands s (latch c s) := by
  rcases latch_cases c s with h | h | ⟨-, h⟩ | ⟨-, -, h⟩ <;> rw [h]
  · exact ⟨rfl, id, id, fun _ _ _ h => h⟩
  · exact .setFlag c s
  · exact (setFlag c s).trans (.enterSafe _)
  · exact (setFlag c s).trans (.abandonReissue _)

theorem latch_memory_flag (s : State) : (latch .memory s).causes.flag .memory = true := by
  have hset : (s.setCauses (s.causes.setFlag .memory)).causes.flag .memory = true := by
    rw [State.setCauses_causes, CauseUnit.flag_setFlag, decide_eq_true rfl, Bool.or_true]
  unfold latch
  dsimp only
  (repeat' split)
  · assumption
  · exact (EndStands.enterSafe _).flag hset
  · exact (EndStands.enterSafe _).flag hset
  · exact (EndStands.enterSafe _).flag hset
  · exact (EndStands.abandonReissue _).flag hset
  all_goals exact hset

theorem EndStands.setCauses_of_flag (u : CauseUnit) {s : State} (h : s.causes.flag .memory = true → u.flag .memory = true) :
    EndStands s (s.setCauses u) := ⟨rfl, id, h, fun _ _ _ h => h⟩

/-- Stage-low follows its condition without a word about MEMORY (R122). -/
theorem EndStands.followLevel_stageLow (s : State) : EndStands s (followLevel .stageLow s) := by
  unfold followLevel
  dsimp only
  (repeat' split)
  · exact .latch _ _
  · refine .setCauses_of_flag _ fun h => ?_
    rw [CauseUnit.flag_clearFlag, h]
    rfl
  · exact ⟨rfl, id, id, fun _ _ _ h => h⟩
  · exact .setCauses_of_flag _ id

theorem EndStands.latches (e : AccessEnd) (s : State) : EndStands s (followLevel .stageLow (e.latches s)) := by
  refine .trans ?_ (.followLevel_stageLow _)
  unfold AccessEnd.latches
  split
  · exact ⟨rfl, id, id, fun _ _ _ h => h⟩
  · exact .latch _ _

theorem flag_memory_of_failed {e : AccessEnd} (h : e.good = false) (s : State) :
    (followLevel .stageLow (e.latches s)).causes.flag .memory = true := by
  refine (EndStands.followLevel_stageLow _).flag ?_
  rw [e.latches_of_not_good h]
  exact latch_memory_flag s

/-! ## The controller's own accesses -/

theorem reroute_before_congr {b b' : State} (hm : b.ctl.mode = b'.ctl.mode) (hw : b.win = b'.win) (s : State) :
    reroute b s = reroute b' s := by
  unfold reroute routedBy
  rw [hm, hw]

/-- Settles O54, by the requester that the access belonged to. -/
theorem controllerAccessEnds : Obligations.ControllerAccessEnds := by
  refine ⟨fun o p e s hr hm hc => ⟨fun ho => ?pass, fun g m ho => ?merged⟩, fun p e s hr hm ho => ?discarded,
    fun lines data s hr hm => ?ignored⟩
  case pass =>
    have hidle : ∀ t, goOn p.owner t = t := fun t => by rw [ho]; rfl
    have hu : ∀ u, ownerEnd p e.good e.word u = endAccess e.good (if p.write then 0 else e.word) u := fun u => by
      unfold ownerEnd
      rw [ho]
    refine ⟨fun hg => ?_, fun hg => ?_⟩
    all_goals
      refine exec_end_of_idle_owner hr hm hidle ((hu _).trans ?_)
      rw [hg]
    · rw [e.good_word hg]; rfl
    · rfl
  case merged =>
    have hidle : ∀ t, goOn p.owner t = t := fun t => by rw [ho]; rfl
    have hu : ∀ u, ownerEnd p e.good e.word u = endAccess e.good (mergeLanes m e.word g) u := fun u => by
      unfold ownerEnd
      rw [ho]
    refine ⟨fun hg => ⟨mergeLanes m e.data g, ?_, fun k => lane_mergeLanes k m e.data g⟩, fun hg => ?_⟩
    all_goals
      refine exec_end_of_idle_owner hr hm hidle ((hu _).trans ?_)
      rw [hg]
    · rw [e.good_word hg]; rfl
    · rfl
  case discarded =>
    have hexec := exec_accessEnd_discarded e hr hm ho
    have kept : ∀ u : State, u.image = s.image → u.mp = none → exec e.command s = .next (followLevel .stageLow (e.latches u)) →
        ∃ t, exec e.command s = .next t ∧ t.image = s.image ∧ t.mp = none ∧ (e.good = false → t.causes.flag .memory = true) :=
      fun u hi hp hx => ⟨_, hx, (EndStands.latches e u).image.trans hi, (EndStands.latches e u).mp hp, fun hg => flag_memory_of_failed hg u⟩
    refine ⟨fun hw => ?none, fun a c taken hc => ?waits⟩
    case none =>
      have hp : passAnew (e.closes s) = e.closes s := by
        unfold passAnew
        split
        · next o hc => exact if_neg (hw o ((e.closes_frame s).2.2.1.symm.trans hc))
        · rfl
      rw [hp] at hexec
      exact ⟨hexec, kept _ (by simp) (by simp) hexec⟩
    case waits =>
      have hc' : (e.closes s).cp = .outstanding ⟨a, c, .afterDiscard, taken⟩ := by simpa using hc
      have hwin : (e.closes s).win = s.win := by simp
      have hbefore : reroute ((e.closes s).setCtl { (e.closes s).ctl with mode := .idle })
            ((e.closes s).setCp (.outstanding ⟨a, c, .service .pass, false⟩)) =
          reroute (s.setCtl { s.ctl with mode := .idle }) ((e.closes s).setCp (.outstanding ⟨a, c, .service .pass, false⟩)) :=
        reroute_before_congr (by rfl) (by exact hwin) _
      rw [passAnew_of_afterDiscard hc' rfl, hbefore] at hexec
      refine ⟨fun hi => ?_, hexec⟩
      rw [reroute_of_unchanged rfl (by simpa using hi.symm) (fun n _ => by simp)] at hexec
      exact ⟨hexec, kept _ (by simp) (by simp) hexec⟩
  case ignored =>
    have hnone : ∀ ok d, ∀ t : State, t.mp = none → accessEnded ok d t = t := fun ok d t ht => by rw [accessEnded, ht]
    refine ⟨congrArg Host.Outcome.next ?_, congrArg Host.Outcome.next ?_⟩
    · rw [unlessReset, hr, if_neg Bool.false_ne_true, hnone _ _ (samplePort lines s) hm, ite_self]
      rfl
    · rw [unlessReset, hr, if_neg Bool.false_ne_true, hnone _ _ s hm]
/-! ## A write to an output window -/

theorem endAccess_zero (ok : Bool) (s : State) : endAccess ok 0 s = s.setCp (.ended ok (!ok) 0) := by
  rw [endAccess, ite_self]

theorem AccessEnd.imageWord_closes {e : AccessEnd} {s : State} {k : Kind} {n : WinIdx} {a : Addr} {w : Nat}
    (h : imageWord s.win k n a = some w) : imageWord (e.closes s).win k n a = some w := by simpa using h

/-- Settles O55: the lanes written are settled in the image, and no requester goes on. -/
theorem windowWriteEnds : Obligations.WindowWriteEnds := by
  intro n e p s w hr hm ho hwf hw
  have hidle : ∀ t, goOn p.owner t = t := fun t => by rcases ho with ho | ho <;> rw [ho] <;> rfl
  have hu : ∀ t, ownerEnd p e.good e.word t =
      endAccess e.good 0 (writeImage n p.addr p.enables p.data (Marks.settle p.enables) t) := fun t => by
    unfold ownerEnd
    rcases ho with ho | ho <;> rw [ho]
  refine ⟨(s.image.writeLanes w p.enables p.data).mark w (Marks.settle p.enables),
    exec_end_of_idle_owner hr hm hidle ((hu _).trans ?_), fun j k => ?_, fun j => ?_⟩
  · rw [endAccess_zero, writeImage_of_imageWord (e.imageWord_closes hw), (e.closes_frame s).2.2.2.2.2.2.2.2.2.1]
  · rw [Store.byte_mark, Store.byte_writeLanes hwf]
  · rw [Store.marksAt_mark (Store.wf_writeLanes hwf _ _ _)]
    exact if_congr eq_comm rfl rfl

/-! ## A priority fetch and a walk read -/

theorem storeSample_of_imageWord {s : State} {n : WinIdx} {a : Addr} {w : Nat} (h : imageWord s.win .input n a = some w) (v : Word)
    (f : Bool) : storeSample n a v f s = s.setImage ((s.image.writeLanes w allLanes v).mark w (Marks.sampled f)) := by
  rw [storeSample, h]

theorem storeSample_eq_setImage (n : WinIdx) (a : Addr) (v : Word) (f : Bool) (s : State) :
    storeSample n a v f s = s.setImage (storeSample n a v f s).image := by
  cases h : imageWord s.win .input n a with
  | none => rw [storeSample, h]; rfl
  | some w => rw [storeSample_of_imageWord h]; rfl

/-- The image after a read for the input slice: a failed one stores nothing. -/
def sampledStore (e : AccessEnd) (n : WinIdx) (a : Addr) (fresh : Bool) (s : State) : Store :=
  if e.good then (storeSample n a e.word fresh s).image else s.image

theorem sampledStore_spec (e : AccessEnd) (n : WinIdx) (a : Addr) (fresh : Bool) (s : State) :
    (if e.good then storeSample n a e.word fresh s else s) = s.setImage (sampledStore e n a fresh s) := by
  unfold sampledStore
  split
  · exact storeSample_eq_setImage n a e.word fresh s
  · rfl

theorem sampledStore_of_failed {e : AccessEnd} (h : e.good = false) (n : WinIdx) (a : Addr) (fresh : Bool) (s : State) :
    sampledStore e n a fresh s = s.image := if_neg (by simp [h])

/-- A word that was read stands in its lanes with HELD, and with FRESH where no mark has crossed the read (R77, R83). -/
theorem sampled_byte {st : Store} (h : st.wf) (w : Nat) (v : Word) (f : Bool) (j : Nat) (k : Fin 4) :
    ((st.writeLanes w allLanes v).mark w (Marks.sampled f)).byte (4 * j + k.val) =
      if j = w then lane k.val v else st.byte (4 * j + k.val) := by
  have hall : allLanes[k] = true := by revert k; decide
  rw [Store.byte_mark, Store.byte_writeLanes h]
  exact if_congr (and_iff_left hall) rfl rfl

theorem sampled_marksAt {st : Store} (h : st.wf) (w : Nat) (v : Word) (f : Bool) (j : Nat) :
    ((st.writeLanes w allLanes v).mark w (Marks.sampled f)).marksAt j =
      if j = w then { st.marksAt w with held := true, fresh := (st.marksAt w).fresh || f } else st.marksAt j := by
  rw [Store.marksAt_mark (Store.wf_writeLanes h _ _ _)]
  exact if_congr eq_comm rfl rfl

/-- The controller port after the end of a walk read: a read that shares it ends with it (R82). -/
def sharedEnd (e : AccessEnd) : CpState → CpState
  | .outstanding ⟨_, _, .shared, _⟩ => .ended e.good (!e.good) e.data
  | c => c

theorem endShared_of_end (e : AccessEnd) (s : State) : endShared e.good e.word s = s.setCp (sharedEnd e s.cp) := by
  unfold endShared sharedEnd
  generalize hc : s.cp = c
  rcases c with _ | ⟨a, c, w, x⟩ | _
  case outstanding =>
    cases w
    case shared => exact endAccess_of_end e s
    all_goals exact congrArg s.setCp hc
  all_goals exact congrArg s.setCp hc

section
variable {e : AccessEnd} {n : WinIdx} {p : PortAccess}

theorem ownerEnd_fetch (ho : p.owner = .fetch n) (s : State) : ownerEnd p e.good e.word s =
    (s.setImage (sampledStore e n p.addr true s)).setCp (.ended e.good (!e.good) e.data) := by
  unfold ownerEnd
  rw [ho]
  exact (endAccess_of_end e _).trans (by rw [sampledStore_spec])

theorem ownerEnd_walkRead {stale : Bool} (ho : p.owner = .walkRead n stale) (s : State) : ownerEnd p e.good e.word s =
    (s.setImage (sampledStore e n p.addr (!stale) s)).setCp (sharedEnd e s.cp) := by
  unfold ownerEnd
  rw [ho]
  exact (endShared_of_end e _).trans (by rw [sampledStore_spec]; rfl)

end

theorem EndStands.walkOn (s : State) : EndStands s (walkOn s) where
  image := by simp
  mp h := by simpa using h
  flag h := by simpa using h
  cp ok fail d h := by simpa using h

/-- What stands after the end of an access whose requester goes on to nothing, or moves the walk on. -/
theorem exec_end_stands {e : AccessEnd} {s u : State} {p : PortAccess} (hr : s.lines.resetHeld = false) (hm : s.mp = some p)
    (ho : ∀ t, EndStands t (goOn p.owner t)) (hu : ownerEnd p e.good e.word (e.closes s) = u) :
    ∃ t, exec e.command s = .next t ∧ EndStands u t ∧ (e.good = false → t.causes.flag .memory = true) := by
  have hl : EndStands u (e.latches u) := by
    unfold AccessEnd.latches
    split
    · exact ⟨rfl, id, id, fun _ _ _ h => h⟩
    · exact .latch _ _
  by_cases hg : e.goesOn u
  · refine ⟨_, exec_end_of_goesOn hr hm hu hg, (hl.trans (ho _)).trans (.followLevel_stageLow _), fun hb => ?_⟩
    refine ((ho _).trans (.followLevel_stageLow _)).flag ?_
    rw [e.latches_of_not_good hb]
    exact latch_memory_flag u
  · exact ⟨_, exec_end_of_stops hr hm hu hg, hl.trans (.followLevel_stageLow _), fun hb => flag_memory_of_failed hb u⟩

theorem goOn_walkRead_stands {o : Owner} {n : WinIdx} {stale : Bool} (ho : o = .walkRead n stale) (t : State) : EndStands t (goOn o t) := by
  subst ho
  cases stale
  · exact .walkOn t
  · exact ⟨rfl, id, id, fun _ _ _ h => h⟩

theorem goOn_fetch_stands {o : Owner} {n : WinIdx} (ho : o = .fetch n) (t : State) : EndStands t (goOn o t) := by
  subst ho
  exact ⟨rfl, id, id, fun _ _ _ h => h⟩

/-- Settles O56, with the store of a read written out where it ends well. -/
theorem inputReadEnds : Obligations.InputReadEnds := by
  refine ⟨fun n off s hi hp => walkOn_comesTo hi hp, fun n stale e p s hr hm ho => ?walk, fun n e p s hr hm ho => ?fetch,
    fun n data p s w hr hm hwf hw => ?ends⟩
  case walk =>
    refine ⟨sampledStore e n p.addr (!stale) (e.closes s), ?_⟩
    intro u
    have hu : ownerEnd p e.good e.word (e.closes s) = u := by
      rw [ownerEnd_walkRead ho, (e.closes_frame s).2.2.1]
      rfl
    have hgo : e.goesOn u ↔ e.goesOn s := e.goesOn_congr (by simp [u]) (by simp [u]) (by simp [u])
    refine ⟨fun hb => by rw [sampledStore_of_failed hb]; simp, fun hg hs => ?_, fun hg hs => ?_, fun hg => ?_⟩
    · rw [exec_end_of_goesOn hr hm hu (hgo.2 hg), ho, hs]
      rfl
    · rw [exec_end_of_goesOn hr hm hu (hgo.2 hg), ho, hs]
      rfl
    · exact exec_end_of_stops hr hm hu (mt hgo.1 hg)
  case fetch =>
    refine ⟨sampledStore e n p.addr true (e.closes s), fun hb => by rw [sampledStore_of_failed hb]; simp, ?_⟩
    exact exec_end_of_idle_owner hr hm (fun t => by rw [ho]; rfl) (ownerEnd_fetch ho _)
  case ends =>
    intro stored
    have hstore : ∀ f, stored (sampledStore (.acked data) n p.addr f ((AccessEnd.acked data).closes s)) f := fun f => by
      have hi : sampledStore (.acked data) n p.addr f ((AccessEnd.acked data).closes s) =
          (s.image.writeLanes w allLanes data).mark w (Marks.sampled f) := by
        refine (if_pos rfl).trans ?_
        rw [storeSample_of_imageWord (AccessEnd.imageWord_closes hw)]
        rfl
      rw [hi]
      exact ⟨sampled_byte hwf w data f, sampled_marksAt hwf w data f⟩
    refine ⟨fun ho => ?_, fun stale ho => ?_, fun e hb ho => ?_⟩
    · obtain ⟨t, ht, hs, -⟩ := exec_end_stands (e := .acked data) hr hm (goOn_fetch_stands ho) (ownerEnd_fetch ho _)
      exact ⟨t, ht, hs.image ▸ hstore true, hs.cp _ _ _ rfl, hs.mp (by simp)⟩
    · obtain ⟨t, ht, hs, -⟩ := exec_end_stands (e := .acked data) hr hm (goOn_walkRead_stands ho) (ownerEnd_walkRead ho _)
      exact ⟨t, ht, hs.image ▸ hstore (!stale), hs.mp (by simp), fun a c x hc => hs.cp _ _ _ (by simp [hc, sharedEnd, AccessEnd.good, AccessEnd.data])⟩
    · rcases ho with ho | ⟨stale, ho⟩
      · obtain ⟨t, ht, hs, hf⟩ := exec_end_stands (e := e) hr hm (goOn_fetch_stands ho) (ownerEnd_fetch ho _)
        refine ⟨t, ht, hs.image.trans ?_, hf hb, hs.mp (by simp), fun _ => hs.cp _ _ _ ?_⟩
        · exact (sampledStore_of_failed hb _ _ _ _).trans (by simp)
        · rw [State.setCp_cp, hb, e.data_of_not_good hb]; rfl
      · obtain ⟨t, ht, hs, hf⟩ := exec_end_stands (e := e) hr hm (goOn_walkRead_stands ho) (ownerEnd_walkRead ho _)
        refine ⟨t, ht, hs.image.trans ?_, hf hb, hs.mp (by simp), ?_⟩
        · exact (sampledStore_of_failed hb _ _ _ _).trans (by simp)
        · rintro (h | ⟨a, c, x, hc⟩)
          · exact Owner.noConfusion (ho.symm.trans h)
          · refine hs.cp _ _ _ ?_
            rw [State.setCp_cp, (e.closes_frame s).2.2.1, hc, sharedEnd, hb, e.data_of_not_good hb]
            rfl

end Sys2Proof.Machine
end

section
/-! PROOF. The end of the release engine's writes: an entry, a flush, fill or reissue word, a marker (R53, R61, R90 to R93, R100, R102,
R138, R139, R147 to R150; log 8, log 19). -/

namespace Sys2Proof.Machine

/-! ## Whether the engine goes on -/

section
variable {e : AccessEnd} {s u : State} {p : PortAccess} {n : WinIdx} {w : Nat}

/-- The access ends with the requester's effects in `u`, and its work goes on by `next` unless the failure has ended it (log 8). -/
def AccessEnd.GoesTo (e : AccessEnd) (s u : State) (next : State → State) : Prop :=
  (e.goesOn s → exec e.command s = .next (followLevel .stageLow (next (e.latches u)))) ∧
    (¬e.goesOn s → exec e.command s = .next (followLevel .stageLow (e.latches u)))

/-- The requester's own effects leave what decides whether it goes on. -/
structure SameCourse (s u : State) : Prop where
  causes : u.causes = s.causes
  ctl : u.ctl = s.ctl
  reissue : u.reissue = s.reissue

theorem exec_end_goes (hr : s.lines.resetHeld = false) (hm : s.mp = some p) (hs : SameCourse s u)
    (hu : ownerEnd p e.good e.word (e.closes s) = u) {next : State → State} (hn : ∀ c, goOn p.owner (u.setCauses c) = next (u.setCauses c)) :
    e.GoesTo s u next := by
  have hgo : e.goesOn u ↔ e.goesOn s := e.goesOn_congr hs.causes (by rw [hs.ctl]) (by rw [hs.reissue])
  refine ⟨fun hg => ?_, fun hg => exec_end_of_stops hr hm hu (mt hgo.1 hg)⟩
  obtain ⟨c, hc⟩ := e.latches_of_goesOn (hgo.2 hg)
  rw [exec_end_of_goesOn hr hm hu (hgo.2 hg), hc, hn c]

theorem SameCourse.closes (e : AccessEnd) (s : State) : SameCourse s (e.closes s) := ⟨by simp, by simp, by simp⟩

/-- Owed is cleared at the end of a write of lanes of an output word (R61). -/
theorem clearOwedAt_closes (e : AccessEnd) (hw : imageWord s.win .output n p.addr = some w) (l : Lanes) :
    clearOwedAt n p.addr l (e.closes s) = (e.closes s).setImage (s.image.mark w (Marks.clearOwed l)) := by
  rw [clearOwedAt_of_imageWord (e.imageWord_closes hw), (e.closes_frame s).2.2.2.2.2.2.2.2.2.1]

/-! ## An entry -/

theorem freeHeadEntry_of_queue {r : BatchRecord} {rest : List BatchRecord} (h : s.release.queue = r :: rest) :
    freeHeadEntry s = s.setRelease { s.release with queue := { r with entries := r.entries.tail } :: rest } := by
  rw [freeHeadEntry, h]

theorem ownerEnd_entry_queued {r : BatchRecord} {rest : List BatchRecord} {x : Entry} {xs : List Entry} (ho : p.owner = .entry n .queued)
    (hw : imageWord s.win .output n p.addr = some w) (hq : s.release.queue = r :: rest) (hx : r.entries = x :: xs) :
    ownerEnd p e.good e.word (e.closes s) = ((e.closes s).setImage (s.image.mark w (Marks.clearOwed p.enables))).setRelease
      { s.release with queue := { r with entries := xs } :: rest } := by
  have hrel : ((e.closes s).setImage (s.image.mark w (Marks.clearOwed p.enables))).release = s.release := by simp
  unfold ownerEnd
  rw [ho]
  dsimp only
  rw [clearOwedAt_closes e hw, freeHeadEntry_of_queue ((congrArg Release.queue hrel).trans hq), hrel, hx]
  rfl

theorem queuedCount_of_purged (hm : s.mp = some p) (ho : p.owner = .entry n .purged) (e : AccessEnd) :
    queuedCount (e.closes s) + 1 = queuedCount s := by
  have horphan : orphanCount s.mp = 1 := orphanCount_of_orphaned ⟨p, n, hm, .inl ho⟩
  rw [queuedCount, queuedCount, horphan, e.closes_mp, (e.closes_frame s).2.2.2.2.2.2.2.2.2.2.2.2.1]
  rfl

/-- A head with entries left is being written (R90, R91). -/
theorem settleHead_of_entries {r : BatchRecord} {rest : List BatchRecord} (hq : s.release.queue = r :: rest) (he : r.entries ≠ []) :
    settleHead s = s.setRelease { s.release with queue := { r with stage := .writing } :: rest } := by
  rw [settleHead, hq]
  exact if_pos he

/-- A level cause whose action is CONTINUE changes the cause unit alone (R122, R128). -/
theorem followLevel_of_no_action {c : LevelCause} (h : s.causes.actionSafe c.cause = false) : ∃ v, followLevel c s = s.setCauses v := by
  rcases followLevel_cases c s with hl | hl
  · rw [hl]
    cases hf : s.causes.flag c.cause
    · exact ⟨_, latch_of_no_action hf (.inl h)⟩
    · exact ⟨s.causes, latch_of_flag hf⟩
  · exact hl

theorem exec_of_followLevel_no_action {i : Instr} {c : LevelCause} (h : exec i s = .next (followLevel c u))
    (ha : u.causes.actionSafe c.cause = false) : ∃ v, exec i s = .next (u.setCauses v) := by
  obtain ⟨v, hv⟩ := followLevel_of_no_action ha
  exact ⟨v, h.trans (congrArg Host.Outcome.next hv)⟩

theorem orphanCount_of_queued (hm : s.mp = some p) (ho : p.owner = .entry n .queued) : orphanCount s.mp = 0 :=
  orphanCount_of_not_orphaned (by
    rintro ⟨q, m, hq, h⟩
    obtain rfl := Option.some.inj (hm.symm.trans hq)
    rcases h with h | h <;> exact absurd (ho.symm.trans h) (by simp))

end

/-- Settles O57: the entry leaves the head or an orphan is freed, and the head is settled again. -/
theorem entryWriteEnds : Obligations.EntryWriteEnds := by
  refine ⟨fun n e p s w hr hm hwf hw => ?ends, fun n data p s r rest x xs w hr hm ho hwf hw hq hx hxs ha => ?goes⟩
  case ends =>
    intro gives
    refine ⟨fun ho r rest x xs hq hx => ⟨_, .of_mark hwf w p.enables, ?_⟩, fun ho => ⟨_, .of_mark hwf w p.enables, ?_⟩, fun ho => ?_⟩
    · intro freed
      exact exec_end_goes hr hm ⟨by simp, by simp, by simp⟩ (ownerEnd_entry_queued ho hw hq hx)
        fun c => by rw [ho]; rfl
    · intro done
      refine exec_end_goes hr hm ⟨by simp [done], by simp [done], by simp [done]⟩ ?_ fun c => by rw [ho]; rfl
      unfold ownerEnd
      rw [ho]
      exact clearOwedAt_closes e hw p.enables
    · obtain ⟨hgo, hstop⟩ := exec_end_goes (next := settleHead) hr hm (.closes e s) (by unfold ownerEnd; rw [ho]) fun c => by rw [ho]; rfl
      exact ⟨hgo, hstop, queuedCount_of_purged hm ho e⟩
  case goes =>
    have hu := ownerEnd_entry_queued (e := .acked data) ho hw hq hx
    have hexec := exec_end_of_goesOn (e := .acked data) hr hm hu (.inl rfl)
    rw [AccessEnd.latches_of_good rfl, ho] at hexec
    change exec _ s = .next (followLevel .stageLow (settleHead _)) at hexec
    rw [settleHead_of_entries rfl hxs] at hexec
    obtain ⟨c, hexec⟩ := exec_of_followLevel_no_action hexec (by exact ha)
    refine ⟨_, hexec, rfl, rfl, .of_mark hwf w p.enables, ?_⟩
    have hqueued : queuedCount s - 1 = (xs.length + (rest.map (·.entries.length)).sum) := by
      rw [queuedCount, orphanCount_of_queued hm ho, hq, List.map_cons, List.sum_cons, hx, List.length_cons]
      omega
    rw [hqueued]
    rfl
/-! ## A flush, fill or reissue word, and a marker -/

section
variable {e : AccessEnd} {s : State} {p : PortAccess} {n : WinIdx} {w : Nat}

theorem AccessEnd.closes_eq (e : AccessEnd) (s : State) : ∃ l, e.closes s = (s.setLines l).setMp none := by
  cases e
  case timedOut => exact ⟨s.lines, rfl⟩
  all_goals exact ⟨_, rfl⟩

theorem SameCourse.setImage_closes (e : AccessEnd) (s : State) (st : Store) : SameCourse s ((e.closes s).setImage st) :=
  ⟨by simp, by simp, by simp⟩

/-- The end of a word that clears owed on its lanes: the work goes on from a state that differs in the lines, the port, the image and the
flag of MEMORY. -/
theorem exec_end_word {l : Lanes} {next : State → State} (hr : s.lines.resetHeld = false) (hm : s.mp = some p)
    (hw : imageWord s.win .output n p.addr = some w) (ho : ∀ t, ownerEnd p e.good e.word t = clearOwedAt n p.addr l t)
    (hn : ∀ lines st c, let t := (((s.setLines lines).setMp none).setImage st).setCauses c
      goOn p.owner t = next t) :
    e.GoesTo s ((e.closes s).setImage (s.image.mark w (Marks.clearOwed l))) next := by
  refine exec_end_goes hr hm (.setImage_closes e s _) ((ho _).trans (clearOwedAt_closes e hw l)) fun c => ?_
  obtain ⟨lines, hl⟩ := e.closes_eq s
  rw [hl]
  exact hn lines _ c

/-- The end of a write that brings no effect of its own. -/
theorem exec_end_effectless {next : State → State} (hr : s.lines.resetHeld = false) (hm : s.mp = some p)
    (ho : ∀ t, ownerEnd p e.good e.word t = t)
    (hn : ∀ lines c, let t := ((s.setLines lines).setMp none).setCauses c
      goOn p.owner t = next t) :
    e.GoesTo s (e.closes s) next := by
  refine exec_end_goes hr hm (.closes e s) (ho _) fun c => ?_
  obtain ⟨lines, hl⟩ := e.closes_eq s
  rw [hl]
  exact hn lines c

end

/-- Settles O58: the work goes on with the next word, the next window or the completion, as the owner of the write stands. -/
theorem releaseWritesEnd : Obligations.ReleaseWritesEnd := by
  refine ⟨fun n off e p s w hr hm hwf hw => ?words, fun live e p s hr hm => ?markers⟩
  case words =>
    intro goes
    have hgoes : ∀ u next, e.GoesTo s u next → goes u next := fun _ _ h => h
    clear_value goes
    refine ⟨fun ho => ?withdrawn, fun ho hpos => ?flush, fun ho => ?fillGivenUp, fun ns ho hl => ?fill, fun ho => ?reissueGivenUp,
      fun ho hpos hph => ?reissue⟩
    case withdrawn => exact hgoes _ _ (exec_end_effectless hr hm (fun t => by unfold ownerEnd; rw [ho]; rfl) fun lines c => by rw [ho]; rfl)
    all_goals refine ⟨_, .of_mark hwf w _, ?_⟩
    case flush =>
      refine hgoes _ _ ?_
      refine exec_end_word hr hm hw (fun t => by unfold ownerEnd; rw [ho]; rfl) fun lines st c => ?_
      rw [ho]
      change settleHead (State.setRelease _ { s.release with flushPos := s.release.flushPos.map fun p => (p.1, p.2 + 1) }) = _
      rw [hpos]
      rfl
    case fillGivenUp =>
      exact hgoes _ _ (exec_end_word hr hm hw (fun t => by unfold ownerEnd; rw [ho]; rfl) fun lines st c => by rw [ho]; rfl)
    case reissueGivenUp =>
      exact hgoes _ _ (exec_end_word hr hm hw (fun t => by unfold ownerEnd; rw [ho]) fun lines st c => by rw [ho]; rfl)
    case fill =>
      have hown : ∀ t, ownerEnd p e.good e.word t = clearOwedAt n p.addr 0b1111#4 t := fun t => by unfold ownerEnd; rw [ho]; rfl
      have step := fun next hn => hgoes _ next (exec_end_word hr hm hw hown hn)
      refine ⟨fun h => ?_, fun h => ⟨fun hn => ?_, fun hn hu => ?_, fun hn hu => ?_⟩⟩
      · exact step _ fun lines st c => by intro t; rw [ho]; exact fillOn_within (s := t) hl h
      · exact step _ fun lines st c => by intro t; rw [ho]; exact fillOn_next_window (s := t) hl h hn
      · subst hn
        exact step _ fun lines st c => by intro t; rw [ho]; exact (fillOn_last (s := t) hl h).trans (if_neg (Bool.eq_false_iff.1 (by exact hu)))
      · subst hn
        exact step _ fun lines st c => by intro t; rw [ho]; exact (fillOn_last (s := t) hl h).trans (if_pos (by exact hu))
    case reissue =>
      have hown : ∀ t, ownerEnd p e.good e.word t = clearOwedAt n p.addr p.enables t := fun t => by unfold ownerEnd; rw [ho]
      have step := fun next hn => hgoes _ next (exec_end_word hr hm hw hown hn)
      refine ⟨fun hf => ?_, fun hf => ?_⟩
      · exact step _ fun lines st c => by intro t; rw [ho]; exact (reissuePast_of_words (s := t) hph hpos).trans (if_pos (by exact hf))
      · exact step _ fun lines st c => by intro t; rw [ho]; exact (reissuePast_of_words (s := t) hph hpos).trans (if_neg (Bool.eq_false_iff.1 (by exact hf)))
  case markers =>
    intro goes
    have hgoes : ∀ next, e.GoesTo s (e.closes s) next → goes next := fun _ h => h
    clear_value goes
    refine ⟨fun ho => ?_, fun ho => ?_, fun ho => ?_⟩
    all_goals
      refine hgoes _ (exec_end_effectless hr hm (fun t => by unfold ownerEnd; rw [ho]) fun lines c => ?_)
      rw [ho]
    · exact if_congr (by rw [Bool.and_eq_true, decide_eq_true_iff]; rfl) rfl rfl
    · rfl
    · rfl

end Sys2Proof.Machine
end

section
/-! PROOF. The head record's stages and its retirement, and the completions of the safe work (R30, R32, R90 to R94, R139, R140, R145, R148;
log 19, log 28). -/

namespace Sys2Proof.Machine

/-! ## The head record's stages -/

section
variable {s : State} {r : BatchRecord} {rest : List BatchRecord}

theorem settleHead_of_seek {set : List WinIdx} {place : WinIdx × Nat} (hq : s.release.queue = r :: rest) (he : r.entries = [])
    (h : seekFlush s.win s.image r.flushSet (flushStart s.release.flushPos r.flushSet) = (set, some place)) : settleHead s =
      s.setRelease { s.release with queue := { r with stage := .flushing, flushSet := set } :: rest, flushPos := some place } := by
  rw [settleHead, hq]
  dsimp only
  rw [if_neg (not_not.2 he), h]

theorem settleHead_of_flushed_out {set : List WinIdx} (hq : s.release.queue = r :: rest) (he : r.entries = [])
    (h : seekFlush s.win s.image r.flushSet (flushStart s.release.flushPos r.flushSet) = (set, none)) : settleHead s =
      if s.marker.enabled then
        s.setRelease { s.release with queue := { r with stage := .marking, flushSet := [] } :: rest, flushPos := none }
      else s.setRelease { queue := { r with flushSet := [] } :: rest, flushPos := none, retireDue := true } := by
  rw [settleHead, hq]
  dsimp only
  rw [if_neg (not_not.2 he), h]

/-- A flush set is taken from the place the flush has reached in its first window, and otherwise from a window's first word (R92). -/
theorem flushStart_of_getElem? {set : List WinIdx} {i : Nat} {n : WinIdx} (h : set[i]? = some n) (p : Option (WinIdx × Nat)) :
    (if i = 0 then flushStart p set else 0) = match p with
      | some (m, off) => if i = 0 ∧ m = n then off else 0
      | none => 0 := by
  rcases p with _ | ⟨m, off⟩
  · exact ite_self _
  · cases i with
    | succ i => rw [if_neg (Nat.succ_ne_zero i)]; exact (if_neg fun h => Nat.succ_ne_zero i h.1).symm
    | zero =>
      cases set with
      | nil => simp at h
      | cons k ks =>
        obtain rfl : k = n := by simpa using h
        rw [if_pos rfl]
        exact if_congr (and_iff_right rfl).symm rfl rfl

theorem settleHead_queue_length (s : State) : (settleHead s).release.queue.length = s.release.queue.length := by
  simpa using congrArg List.length (settleHead_view s)

/-! ## The retirement -/

theorem retire_of_queue (hq : s.release.queue = r :: rest) : retire s =
    (let left := s.setRelease ⟨rest, none, false⟩
    if rest ≠ [] then settleHead left
    else if s.ctl.mode = .ending then left.setCtl { s.ctl with mode := .idle } else left) := by
  unfold retire
  rw [hq]
  exact (ite_not _ _ _).symm

theorem retire_mode_eq_run_iff (s : State) : (retire s).ctl.mode = .run ↔ s.ctl.mode = .run := by
  unfold retire
  dsimp only
  split
  · split
    · next h =>
      have hne : s.ctl.mode ≠ .run := fun hrun => Mode.noConfusion (h.symm.trans hrun)
      exact iff_of_false (fun h => Mode.noConfusion h) hne
    · rfl
  · simp

theorem retire_queue_length (hq : s.release.queue = r :: rest) : (retire s).release.queue.length = rest.length := by
  rw [retire_of_queue hq]
  dsimp only
  split
  · exact settleHead_queue_length _
  · split <;> rfl

theorem exec_retirement_whole (hq : s.release.queue = r :: rest) (hd : s.release.retireDue = true) :
    exec .retirement s = .next (afterRetirement s (retire s)) :=
  exec_retirement ((retirementDue_iff s).2 ⟨hd, by simp [hq]⟩)

theorem afterRetirement_of_outstanding {before : State} {o : Outstanding} (hc : s.cp = .outstanding o) : afterRetirement before s =
    if o.wait = .markStall ∧ s.ctl.mode = .run then releaseMark o s else reroute before s := by
  rw [afterRetirement, hc]

end

/-- Settles O59: the first stage that applies, and the retirement with what waits on it. -/
theorem headWorksAndRetires : Obligations.HeadWorksAndRetires := by
  refine ⟨fun s r rest hq => ⟨fun he => settleHead_of_entries hq he, fun he => ?stages⟩, fun s r rest hq hd => ?retires⟩
  case stages =>
    intro start owed flushed
    have hstart : ∀ i n, r.flushSet[i]? = some n →
        (if i = 0 then flushStart s.release.flushPos r.flushSet else 0) = start i n := fun i n h => flushStart_of_getElem? h _
    obtain ⟨hfound, hnone⟩ := seekFlush_spec (ws := s.win) (st := s.image) r.flushSet (flushStart s.release.flushPos r.flushSet)
    have hflushed : ∀ i, flushed i → FlushedOut s.win s.image r.flushSet (flushStart s.release.flushPos r.flushSet) i :=
      fun i h n k hn hk hlt => h n k hn ((hstart i n hn).symm.trans_le hk) hlt
    refine ⟨fun i n k hn hj hk hlt ho hfirst => ?_, fun hall => ?_⟩
    · refine settleHead_of_seek hq he (hfound i n k hn (fun j hji => hflushed j (hj j hji)) ((hstart i n hn).trans_le hk) hlt ho
        fun j hsj hjk => hfirst j ((hstart i n hn).symm.trans_le hsj) hjk)
    · have h := settleHead_of_flushed_out hq he (hnone fun i => hflushed i (hall i))
      exact ⟨fun hm => h.trans (if_pos hm), fun hm => h.trans (if_neg (by simp [hm]))⟩
  case retires =>
    intro left retired
    have hret : retire s = retired := retire_of_queue hq
    have hexec : exec .retirement s = .next (afterRetirement s retired) := hret ▸ exec_retirement_whole hq hd
    have hcp : retired.cp = s.cp := hret ▸ (by simp : (retire s).cp = s.cp)
    have hmode : retired.ctl.mode = .run ↔ s.ctl.mode = .run := hret ▸ retire_mode_eq_run_iff s
    have hsampler : retired.sampler = s.sampler := hret ▸ (by simp : (retire s).sampler = s.sampler)
    have hlen : retired.release.queue.length = rest.length := hret ▸ retire_queue_length hq
    refine ⟨fun hn => ?free, fun o ho hw => ?waits, fun a c taken ho hm hlt => ?mark, fun a n taken ho hm hr => ?ending⟩
    case free =>
      rw [hexec, afterRetirement, hcp]
      cases hc : s.cp
      case outstanding o => exact absurd hc (hn o)
      all_goals rfl
    case waits =>
      rw [hexec, afterRetirement_of_outstanding (hcp.trans ho), if_neg]
      rintro ⟨h, h'⟩
      exact hw.elim (absurd h) (absurd (hmode.1 h'))
    case mark =>
      intro after
      rw [hexec, afterRetirement_of_outstanding (hcp.trans ho), if_pos ⟨rfl, hmode.2 hm⟩, releaseMark, if_pos (hlen ▸ hlt),
        stalledBoundary_eq, hsampler]
      exact ⟨fun hw => by rw [if_neg hw]; rfl, fun hw => by rw [if_pos hw]; rfl⟩
    case ending =>
      have hidle : retired = left.setCtl { s.ctl with mode := .idle } := (if_neg (not_not.2 hr)).trans (if_pos hm)
      have hmodeIdle : retired.ctl.mode = .idle := congrArg (fun t : State => t.ctl.mode) hidle
      have hchanged : s.ctl.mode ≠ retired.ctl.mode := by rw [hm, hmodeIdle]; decide
      rw [hexec, afterRetirement_of_outstanding (hcp.trans ho), if_neg (by simp), reroute_of_changed (hcp.trans ho) rfl (.inl hchanged),
        route_of_plain_treatment false (t := .pass) (treatmentOf_idle hmodeIdle _) trivial]
      rfl
/-! ## The windows that owe a byte -/

section
variable {α : Type} {d : α} {m : List (Nat × α)}

/-- A listed cell is what its address reads as, the addresses rising. -/
theorem Memory.read_of_mem (h : m.Pairwise fun x y => x.1 < y.1) {c : Nat × α} (hc : c ∈ m) : Memory.read d m c.1 = c.2 := by
  induction m with
  | nil => simp at hc
  | cons x t ih =>
    obtain ⟨hx, ht⟩ := List.pairwise_cons.1 h
    obtain ⟨k, v⟩ := x
    rcases List.mem_cons.1 hc with rfl | hct
    · exact if_pos rfl
    · exact (if_neg (Nat.ne_of_lt (hx c hct))).trans (ih ht hct)

theorem Memory.mem_of_read_ne {a : Nat} (h : Memory.read d m a ≠ d) : (a, Memory.read d m a) ∈ m := by
  induction m with
  | nil => exact absurd rfl h
  | cons x t ih =>
    obtain ⟨k, v⟩ := x
    rw [Memory.read] at h ⊢
    by_cases hk : k = a
    · rw [if_pos hk, hk]
      exact List.mem_cons_self ..
    · rw [if_neg hk] at h ⊢
      exact List.mem_cons_of_mem _ (ih h)

end

theorem owesSome_iff {ws : Windows} {st : Store} (h : st.wf) (n : WinIdx) : owesSome ws st n = true ↔
    ∃ k, k < (ws[n]).record.length.toNat ∧ OwedAt ws st n k := by
  rw [owesSome, List.any_eq_true]
  constructor
  · rintro ⟨c, hc, hp⟩
    obtain ⟨hin, howed⟩ := (Bool.and_eq_true_iff).1 hp
    obtain ⟨hlo, hhi⟩ := (Fields.inImage_iff _ _).1 hin
    refine ⟨c.1 - (ws[n]).record.imageBase.toNat, by omega, ?_⟩
    rw [OwedAt, Nat.add_sub_cancel' hlo, Store.marksAt, Memory.read_of_mem h.2.1 hc]
    exact of_decide_eq_true howed
  · rintro ⟨k, hk, howed⟩
    have hne : st.marksAt ((ws[n]).record.imageBase.toNat + k) ≠ Marks.clear := fun hclear => howed (by rw [hclear]; rfl)
    refine ⟨_, Memory.mem_of_read_ne hne, (Bool.and_eq_true_iff).2 ⟨(Fields.inImage_iff _ _).2 ?_, decide_eq_true howed⟩⟩
    omega

theorem mem_owedOpenOutputs {ws : Windows} {st : Store} (h : st.wf) (n : WinIdx) : n ∈ owedOpenOutputs ws st ↔
    (ws[n]).defined = true ∧ (ws[n]).record.kind = .output ∧ (ws[n]).freeze = .opened ∧
      ∃ k, k < (ws[n]).record.length.toNat ∧ OwedAt ws st n k := by
  simp only [owedOpenOutputs, List.mem_filter, mem_allWin, true_and, Bool.and_eq_true, Window.isOutput, decide_eq_true_eq,
    owesSome_iff h, and_assoc]

/-- Settles O60, by the two completions and the routing anew of nothing where no access waits. -/
theorem safeWorkCompletes : Obligations.SafeWorkCompletes := by
  refine ⟨fun s n h => mem_owedOpenOutputs h n, fun s ha hp => ?fill, fun s hr hp hf => ?reissue⟩
  case fill =>
    have hexec : exec .safeFillComplete s = .next (if s.fill.list = [] then s.setFill ⟨[], 0, false, .words⟩
        else s.setFill { s.fill with offset := 0, phase := .words }) := congrArg Host.Outcome.next (if_pos ⟨ha, hp⟩)
    exact ⟨fun hl => hexec.trans (by rw [if_pos hl]), fun hl => hexec.trans (by rw [if_neg hl])⟩
  case reissue =>
    intro t
    have hexec : exec .reissueComplete s = .next (reroute s t) := congrArg Host.Outcome.next (if_pos ⟨hr, hp, by rw [hf]; rfl⟩)
    refine ⟨hexec, fun hc => hexec.trans (congrArg Host.Outcome.next (reroute_of_still ?_))⟩
    intro o ho
    exact CpState.noConfusion (hc.symm.trans ho)

end Sys2Proof.Machine
end
